-- ==== Sys2Proof/Word.lean ====
section
/-! DEFINITION. The word types of the block: octets (00_scope.md, R23) and the fixed widths of its registers. -/

namespace Sys2Proof

/-- One octet of the byte stream and of the frame buffer (R23, R70): all 256 values are legal (R11). -/
abbrev Byte := BitVec 8

/-- The fill count register, 6 bits (R21). -/
abbrev Count := BitVec 6

/-- A 16-bit unsigned field of the frame (R52) and the width of `rd_data` (R78). -/
abbrev Half := BitVec 16

/-- The 18-bit decision word of a byte step (R75). -/
abbrev DecisionWord := BitVec 18

end Sys2Proof
end

