-- ==== Sys2Proof/Config.lean ====
section
/-! DEFINITION. The named constants of 00_scope.md section 3 (D26: one configuration record) and the values the spec leaves open. -/

namespace Sys2Proof.Config

/-- START_MARKER (R7). -/
abbrev startMarker : Byte := 0x76#8

/-- EOF_MARKER (R8). -/
abbrev eofMarker : Byte := 0x00#8

/-- FRAME_LEN (R9). -/
abbrev frameLen : Nat := 48

/-- HALF_LEN (R9). -/
abbrev halfLen : Nat := 24

/-- PREMATURE_IDX, CommandHalf[21] (R10). -/
abbrev prematureIdx : Nat := 21

/-- ALIGN_IDX, ResponseHalf[0] (R10). -/
abbrev alignIdx : Nat := 24

/-- EOF_IDX, ResponseHalf[21] (R10; 90_conflicts.md C1, C2). -/
abbrev eofIdx : Nat := 45

/-- The largest known run-state code (R155). -/
abbrev lastRunState : Byte := 8#8

/-- The largest known error code (R156). -/
abbrev lastError : Byte := 10#8

/-- The selector that names a fallback text (R81). -/
abbrev unknownSel : BitVec 4 := 15#4

/-- FREE VALUE: what `rd_data` shows to the n-th READ that finds `tlm_valid = 0` (R118: "the hardware drives some value; no claim
may depend on it"; 93_implementation_defined.md I9). No body: nothing can be proved of it (log entry 4). -/
opaque freeRdData : Nat → Half

/-- OPEN parameter RUN_STATE_TEXT[0..4, 6..8] (R160, D15): the texts the source does not give (log entry 12). -/
opaque openRunStateText : Nat → String

/-- OPEN parameter ERROR_TEXT[0..3, 5..10] (R161, D15): the texts the source does not give (log entry 12). -/
opaque openErrorText : Nat → String

end Sys2Proof.Config
end

