-- ==== Sys2Proof/Syntax.lean ====
section
/-! DEFINITION. The instructions: one constructor per row of spec/opcode_table.json, and the three kinds of word they are encoded in.

The eight BYTESTEP rows are the actions of a byte step (R76). Their operands are the bits of the decision word {m, c, z21, s24, z45, b}
(R75) that the row does not fix, so that no bit of a word is dropped (log entry 9). -/

namespace Sys2Proof

/-- One row of spec/opcode_table.json each, in the table's order. -/
inductive Instr where
  /-- SEEK_START (R100): m = 0, c = 0, b = 0x76. -/
  | seekStart (z21 s24 z45 : Bool)
  /-- SEEK_DROP (R101): m = 0, c = 0, b ≠ 0x76. -/
  | seekDrop (z21 s24 z45 : Bool) (b : Byte)
  /-- ACC_CHK24_DISCARD (R104): m = 1, c = 23, z21 = 1. -/
  | accChk24Discard (s24 z45 : Bool) (b : Byte)
  /-- ACC_CHK24_PASS (R103): m = 1, c = 23, z21 = 0. -/
  | accChk24Pass (s24 z45 : Bool) (b : Byte)
  /-- ACC_DONE_OK (R105): m = 1, c = 47, s24 = 1, z45 = 1. -/
  | accDoneOk (z21 : Bool) (b : Byte)
  /-- ACC_DONE_BAD (R106): m = 1, c = 47, s24 = 0 or z45 = 0. -/
  | accDoneBad (z21 s24 z45 : Bool) (b : Byte)
  /-- ACC_APPEND (R102): m = 1, c in 1..46, c ≠ 23. -/
  | accAppend (c : Count) (z21 s24 z45 : Bool) (b : Byte)
  /-- ILLEGAL_STATE (R107): every word no earlier row takes. -/
  | illegalState (m : Bool) (c : Count) (z21 s24 z45 : Bool) (b : Byte)
  /-- POLL (R109): h = 01. -/
  | poll
  /-- RESET (R117): h = 1x; `withPoll` is the poll bit, which rst dominates (R77). -/
  | reset (withPoll : Bool)
  /-- READ T<idx> (R118). -/
  | read (idx : BitVec 4)
  deriving DecidableEq, Repr

/-- A word together with the place it arrives at, which tells the table's three formats apart. -/
inductive Encoded where
  /-- Format BYTESTEP: the decision word (R75). -/
  | byteStep (w : DecisionWord)
  /-- Format HOST: h = {rst, poll} (R77). -/
  | host (h : BitVec 2)
  /-- Format SINK: the port rd_idx (R78). -/
  | sink (idx : BitVec 4)
  deriving DecidableEq, Repr

/-- Why the decoder rejects a word. -/
inductive DecodeError where
  /-- h = 00: no host event (R77). -/
  | noHostEvent
  /-- rd_idx 14 or 15 names no field (R82, R118). -/
  | noTelemetryField (idx : BitVec 4)
  /-- A table word (`decodeTableWord`) that fits none of the table's formats. -/
  | noFormat (nbits w : Nat)
  deriving DecidableEq, Repr

end Sys2Proof
end

