-- ==== Sys2Proof/WellFormed.lean ====
section
/-! DEFINITION. Which terms of `Instr` stand for words that select their row (R76, R82). -/

namespace Sys2Proof

/-- The operands a row admits, beyond the bits it fixes. -/
def Instr.wf : Instr → Bool
  | .seekStart _ _ _ => true
  | .seekDrop _ _ _ b => b != Config.startMarker
  | .accChk24Discard _ _ _ => true
  | .accChk24Pass _ _ _ => true
  | .accDoneOk _ _ => true
  | .accDoneBad _ s24 z45 _ => !(s24 && z45)
  | .accAppend c _ _ _ _ => 1 ≤ c.toNat && c.toNat ≤ 46 && c.toNat != 23
  | .illegalState m c _ _ _ _ => if m then c.toNat == 0 || 48 ≤ c.toNat else c.toNat != 0
  | .poll => true
  | .reset _ => true
  | .read idx => idx.toNat ≤ 13

end Sys2Proof
end

