-- ==== Sys2Proof/Decode.lean ====
section
/-! DEFINITION. The opcode table of 30_encoding.md R76 and R77 as data, the decoder read off it, the encoder, and `decodeTableWord`. -/

namespace Sys2Proof

/-! ### The decision word (R75) -/

/-- {m, c[5:0], z21, s24, z45, b[7:0]}, m in bit 17 (R75). -/
def wordOf (m : Bool) (c : Count) (z21 s24 z45 : Bool) (b : Byte) : DecisionWord :=
  BitVec.ofBool m ++ c ++ BitVec.ofBool z21 ++ BitVec.ofBool s24 ++ BitVec.ofBool z45 ++ b

/-- Bit [17]. -/
def wordM (w : DecisionWord) : Bool := w.getLsbD 17
/-- Bits [16:11]. -/
def wordC (w : DecisionWord) : Count := w.extractLsb' 11 6
/-- Bit [10]. -/
def wordZ21 (w : DecisionWord) : Bool := w.getLsbD 10
/-- Bit [9]. -/
def wordS24 (w : DecisionWord) : Bool := w.getLsbD 9
/-- Bit [8]. -/
def wordZ45 (w : DecisionWord) : Bool := w.getLsbD 8
/-- Bits [7:0]. -/
def wordB (w : DecisionWord) : Byte := w.extractLsb' 0 8

/-! ### The rows (R76) -/

/-- The action a row of format BYTESTEP names. -/
inductive ByteAction where
  | seekStart | seekDrop | accChk24Discard | accChk24Pass | accDoneOk | accDoneBad | accAppend | illegalState
  deriving DecidableEq, Repr

/-- A row of R76: it takes a word when `word & mask = bits` and its constraint on the count field, `cMin ≤ c ≤ cMax`, holds. -/
structure Row where
  action : ByteAction
  bits : DecisionWord
  mask : DecisionWord
  cMin : Nat := 0
  cMax : Nat := 63
  deriving DecidableEq, Repr

/-- The eight rows in priority order (R76): match, mask and constraint as the table gives them. -/
def byteRows : List Row :=
  [ { action := .seekStart, bits := 0x00076#18, mask := 0x3F8FF#18 },
    { action := .seekDrop, bits := 0x00000#18, mask := 0x3F800#18 },
    { action := .accChk24Discard, bits := 0x2BC00#18, mask := 0x3FC00#18 },
    { action := .accChk24Pass, bits := 0x2B800#18, mask := 0x3FC00#18 },
    { action := .accDoneOk, bits := 0x37B00#18, mask := 0x3FB00#18 },
    { action := .accDoneBad, bits := 0x37800#18, mask := 0x3F800#18 },
    { action := .accAppend, bits := 0x20000#18, mask := 0x20000#18, cMin := 1, cMax := 46 },
    { action := .illegalState, bits := 0x00000#18, mask := 0x00000#18 } ]

/-- Whether a row takes a word. -/
def Row.takes (r : Row) (w : DecisionWord) : Bool :=
  w &&& r.mask == r.bits && decide (r.cMin ≤ (wordC w).toNat) && decide ((wordC w).toNat ≤ r.cMax)

/-- First match wins (R76). The last row takes every word, so the end of the list is never reached on `byteRows`. -/
def firstRow (w : DecisionWord) : List Row → ByteAction
  | [] => .illegalState
  | r :: rs => if r.takes w then r.action else firstRow w rs

/-- The action a decision word selects. -/
def selectAction (w : DecisionWord) : ByteAction := firstRow w byteRows

/-- The instruction of an action, its operands read from the word. -/
def instrOf (w : DecisionWord) : ByteAction → Instr
  | .seekStart => .seekStart (wordZ21 w) (wordS24 w) (wordZ45 w)
  | .seekDrop => .seekDrop (wordZ21 w) (wordS24 w) (wordZ45 w) (wordB w)
  | .accChk24Discard => .accChk24Discard (wordS24 w) (wordZ45 w) (wordB w)
  | .accChk24Pass => .accChk24Pass (wordS24 w) (wordZ45 w) (wordB w)
  | .accDoneOk => .accDoneOk (wordZ21 w) (wordB w)
  | .accDoneBad => .accDoneBad (wordZ21 w) (wordS24 w) (wordZ45 w) (wordB w)
  | .accAppend => .accAppend (wordC w) (wordZ21 w) (wordS24 w) (wordZ45 w) (wordB w)
  | .illegalState => .illegalState (wordM w) (wordC w) (wordZ21 w) (wordS24 w) (wordZ45 w) (wordB w)

/-- The byte-step decoder, total on the 2^18 words (R76). -/
def decodeByteStep (w : DecisionWord) : Instr := instrOf w (selectAction w)

/-- The host event word h = {rst, poll}; rst dominates poll (R77). -/
def decodeHost (h : BitVec 2) : Except DecodeError Instr :=
  if h.getLsbD 1 then .ok (.reset (h.getLsbD 0))
  else if h.getLsbD 0 then .ok .poll
  else .error .noHostEvent

/-- The sink's field index; 14 and 15 name no field (R82, R118). -/
def decodeSink (idx : BitVec 4) : Except DecodeError Instr :=
  if idx.toNat ≤ 13 then .ok (.read idx) else .error (.noTelemetryField idx)

/-- The decoder: total on every word of the three formats, rejecting by name. -/
def decode : Encoded → Except DecodeError Instr
  | .byteStep w => .ok (decodeByteStep w)
  | .host h => decodeHost h
  | .sink idx => decodeSink idx

/-! ### The encoder -/

/-- The word of an instruction, written from the table's columns "selects when" (R76, R77) and the port rd_idx (R78). -/
def encode : Instr → Encoded
  | .seekStart z21 s24 z45 => .byteStep (wordOf false 0#6 z21 s24 z45 0x76#8)
  | .seekDrop z21 s24 z45 b => .byteStep (wordOf false 0#6 z21 s24 z45 b)
  | .accChk24Discard s24 z45 b => .byteStep (wordOf true 23#6 true s24 z45 b)
  | .accChk24Pass s24 z45 b => .byteStep (wordOf true 23#6 false s24 z45 b)
  | .accDoneOk z21 b => .byteStep (wordOf true 47#6 z21 true true b)
  | .accDoneBad z21 s24 z45 b => .byteStep (wordOf true 47#6 z21 s24 z45 b)
  | .accAppend c z21 s24 z45 b => .byteStep (wordOf true c z21 s24 z45 b)
  | .illegalState m c z21 s24 z45 b => .byteStep (wordOf m c z21 s24 z45 b)
  | .poll => .host 0b01#2
  | .reset withPoll => .host (0b1#1 ++ BitVec.ofBool withPoll)
  | .read idx => .sink idx

/-! ### Words as spec/opcode_table.json numbers them -/

/-- The place a table word arrives at. The BYTESTEP rows have 18 bits, the HOST rows 2 and the SINK row 4. The last two formats both fill
one byte, in which the table does not tell them apart: 1, 2 and 3 are read as the host events, every other value as rd_idx (log entry 10). -/
def encodedOfTable (nbits w : Nat) : Except DecodeError Encoded :=
  if 18 ≤ nbits then
    if w < 2 ^ 18 then .ok (.byteStep (BitVec.ofNat 18 w)) else .error (.noFormat nbits w)
  else if 1 ≤ w ∧ w ≤ 3 then .ok (.host (BitVec.ofNat 2 w))
  else if w < 2 ^ 4 then .ok (.sink (BitVec.ofNat 4 w))
  else .error (.noFormat nbits w)

/-- What the decoder reads from a table word of `nbits` bits. -/
def decodeTableWord (nbits w : Nat) : Option Instr :=
  match encodedOfTable nbits w with
  | .ok e => (decode e).toOption
  | .error _ => none

end Sys2Proof
end

