-- ==== Sys2Proof/Machine/State.lean ====
section
/-! DEFINITION. The state of the block and of its byte source, what the host and the sink do next, the reasons a step can stop, and the
state after reset (10_state.md). -/

namespace Sys2Proof.Machine

/-- The Synchronizer's mode (R20). -/
inductive Mode where
  /-- SEEK (SeekingStart), encoded 0. -/
  | seek
  /-- ACC (Accumulating), encoded 1. -/
  | acc
  deriving DecidableEq, Repr

/-- The frame buffer (R23, R50): the entries that hold a value, as (index, byte) pairs with indices strictly rising and below 48. An
unlisted index holds no value (⊥). -/
abbrev Memory := List Host.Cell

/-- The Telemetry record (R26): the raw unsigned integers, T0 to T13. -/
structure Telemetry where
  /-- T0 -/
  setTemp : BitVec 8
  /-- T1 -/
  desiredTemp : BitVec 8
  /-- T2 -/
  runStateCode : BitVec 8
  /-- T3 -/
  onOff : Bool
  /-- T4 -/
  supplyVoltageRaw : BitVec 16
  /-- T5 -/
  fanSpeed : BitVec 16
  /-- T6 -/
  fanVoltageRaw : BitVec 16
  /-- T7 -/
  heatExchangerTemp : BitVec 16
  /-- T8 -/
  glowPlugVoltageRaw : BitVec 16
  /-- T9 -/
  glowPlugCurrentRaw : BitVec 16
  /-- T10 -/
  pumpFreqRaw : BitVec 8
  /-- T11 -/
  errorCode : BitVec 8
  /-- T12 -/
  errorSel : BitVec 4
  /-- T13 -/
  runStateSel : BitVec 4
  deriving DecidableEq, Repr

/-- One thing the host or the sink does (log entry 2). -/
inductive Input where
  /-- The host appends one byte to the byte source (R58, R83). -/
  | push (b : Byte)
  /-- A clock edge at which the host drives h = {rst, poll} (R77). -/
  | edge (h : BitVec 2)
  /-- The sink reads through rd_idx (R118), between two edges. -/
  | read (idx : BitVec 4)
  deriving DecidableEq, Repr

/-- The whole machine, plain data. -/
structure State where
  /-- R20. -/
  mode : Mode
  /-- The fill count (R21). -/
  count : Count
  /-- The accumulation buffer (R23). -/
  buf : Memory
  /-- An invocation is draining bytes (R25). -/
  busy : Bool
  /-- R27. -/
  tlmValid : Bool
  /-- T0..T13 (R26); `none` is the spec's own ⊥ of all fourteen fields (R27, R34). -/
  tlm : Option Telemetry
  /-- The sticky fault (R32). -/
  fault : Bool
  /-- The event output (R31): strobe, -/
  evtStrobe : Bool
  /-- code (R79), -/
  evtCode : BitVec 3
  /-- and info (R80). -/
  evtInfo : BitVec 2
  /-- The byte source, oldest byte first (R55 to R58). -/
  src : List Byte
  /-- The model's own: what the host and the sink do next, oldest first; when it is empty the clock runs on with h = 00 (log entry 2). -/
  inputs : List Input
  /-- The model's own: the value the last READ got (log entry 5). -/
  rdData : Half
  /-- The model's own: how many free values READs have drawn (log entry 4). -/
  freeDraws : Nat
  deriving DecidableEq, Repr

/-- Why a step can stop with a fault. The block's own IllegalState is none of these: it is the register `fault`, set in a next state
(R186, log entry 8). -/
inductive Fault where
  /-- Raised by a write of a frame-buffer index above 47, which does not exist (R50). Only an ACC_APPEND that the state does not select
  could make one, so no step of the machine raises it. Safe. -/
  | noSuchEntry (index : Nat)
  deriving DecidableEq, Repr

/-- Why a step has no meaning. -/
inductive Refusal where
  /-- Raised by an arm of `exec` whose instruction has no meaning yet (there is none). Safe. -/
  | notModelled (mnemonic : String)
  /-- Raised by READ, and by the step that decodes it, when rd_idx is 14 or 15: "the read is refused (no field)" (R118). Safe. -/
  | noTelemetryField (idx : BitVec 4)
  deriving DecidableEq, Repr

/-- The state after RESET, which is the power-on state (R34, R210). The byte source and the schedule are empty, and the model's own fields
are 0 (log entries 2 to 5). -/
def State.reset : State :=
  { mode := .seek
    count := 0#6
    buf := []
    busy := false
    tlmValid := false
    tlm := none
    fault := false
    evtStrobe := false
    evtCode := 0#3
    evtInfo := 0#2
    src := []
    inputs := []
    rdData := 0#16
    freeDraws := 0 }

end Sys2Proof.Machine
end

