-- ==== Sys2Proof/Machine/Flags.lean ====
section
/-! DEFINITION. The one-bit conditions and the event output: the marker comparisons, the detail of a marker failure, the event codes and
the driving of (evt_strobe, evt_code, evt_info) (30_encoding.md R75, R79, R80; 10_state.md R31). -/

namespace Sys2Proof.Machine

/-- The mode register's bit: SEEK = 0, ACC = 1 (R20). -/
def Mode.bit : Mode → Bool
  | .seek => false
  | .acc => true

/-- The mode a bit encodes (R20). -/
def Mode.ofBit (m : Bool) : Mode := if m then .acc else .seek

/-- Whether an entry holds the end-of-frame marker; 0 when it holds no value (R75: z21, z45). -/
def holdsEof (entry : Option Byte) : Bool := entry == some Config.eofMarker

/-- Whether an entry holds the start marker; 0 when it holds no value (R75: s24). -/
def holdsStart (entry : Option Byte) : Bool := entry == some Config.startMarker

/-- The events of R79, with the codes 6 and 7 reserved. -/
inductive Event where
  | none | frameOk | prematureEof | markerFail | shortFrame | illegalState
  deriving DecidableEq, Repr

/-- `evt_code` (R79). -/
def Event.code : Event → BitVec 3
  | .none => 0#3
  | .frameOk => 1#3
  | .prematureEof => 2#3
  | .markerFail => 3#3
  | .shortFrame => 4#3
  | .illegalState => 5#3

/-- `evt_info` of MARKER_FAIL from the bytes at ALIGN_IDX and EOF_IDX: bit 1 = start marker fails, bit 0 = end marker fails (R80, R106). -/
def markerInfo (align eof : Byte) : BitVec 2 :=
  BitVec.ofBool (align != Config.startMarker) ++ BitVec.ofBool (eof != Config.eofMarker)

/-- `emit E(info)`: drive the event output for this step; `evt_strobe` is 1 exactly when the code is not 0 (R31, R79). -/
def State.emit (e : Event) (info : BitVec 2) (s : State) : State :=
  { s with evtStrobe := e.code != 0#3, evtCode := e.code, evtInfo := info }

/-- A step that reports nothing drives 0, 0, 0 (R31). -/
def State.emitNone (s : State) : State := s.emit .none 0#2

end Sys2Proof.Machine
end

