-- ==== Sys2Proof/Machine/Operands.lean ====
section
/-! DEFINITION. The operand forms of the Decoder: the halves of a frame, the 16-bit fields, the two selectors, the Telemetry record of a
frame, and the views a reader has of a record (41_decoder.md). -/

namespace Sys2Proof.Machine

/-- A validated frame: exactly 48 bytes (R9, R70). -/
abbrev Frame := Vector Byte 48

/-- `C[k]`, CommandHalf byte k = frame byte k (R71, R141). -/
def commandByte (f : Frame) (k : Fin 24) : Byte := f[k.val]

/-- `R[k]`, ResponseHalf byte k = frame byte 24+k (R71, R141). -/
def responseByte (f : Frame) (k : Fin 24) : Byte := f[24 + k.val]

/-- BE16(hi, lo) = (zext_16(hi) << 8) | zext_16(lo) (00_scope.md section 4, R52). -/
def be16 (hi lo : Byte) : Half := (hi.zeroExtend 16 <<< 8) ||| lo.zeroExtend 16

/-- RunSel (R155, R81). -/
def runSel (code : Byte) : BitVec 4 :=
  if code ≤ Config.lastRunState then code.truncate 4 else Config.unknownSel

/-- ErrSel (R156, R81). -/
def errSel (code : Byte) : BitVec 4 :=
  if code ≤ Config.lastError then code.truncate 4 else Config.unknownSel

/-- The record DECODE computes from a frame (R140, R142 to R153, R155, R156). -/
def telemetryOf (f : Frame) : Telemetry :=
  { setTemp := commandByte f 3
    desiredTemp := commandByte f 4
    runStateCode := responseByte f 2
    onOff := responseByte f 3 == 1#8
    supplyVoltageRaw := be16 (responseByte f 4) (responseByte f 5)
    fanSpeed := be16 (responseByte f 6) (responseByte f 7)
    fanVoltageRaw := be16 (responseByte f 8) (responseByte f 9)
    heatExchangerTemp := be16 (responseByte f 10) (responseByte f 11)
    glowPlugVoltageRaw := be16 (responseByte f 12) (responseByte f 13)
    glowPlugCurrentRaw := be16 (responseByte f 14) (responseByte f 15)
    pumpFreqRaw := responseByte f 16
    errorCode := responseByte f 17
    errorSel := errSel (responseByte f 17)
    runStateSel := runSel (responseByte f 2) }

/-- The frame a list of bytes is, if it has exactly 48 (R158's length check). -/
def frameOfBytes (bytes : List Byte) : Option Frame :=
  if h : bytes.length = Config.frameLen then some ⟨bytes.toArray, by simpa using h⟩ else none

/-- zext_16 of field T<n> (R26, R118); there is no field above T13. -/
def Telemetry.field (t : Telemetry) : Nat → Option Half
  | 0 => some (t.setTemp.zeroExtend 16)
  | 1 => some (t.desiredTemp.zeroExtend 16)
  | 2 => some (t.runStateCode.zeroExtend 16)
  | 3 => some ((BitVec.ofBool t.onOff).zeroExtend 16)
  | 4 => some t.supplyVoltageRaw
  | 5 => some t.fanSpeed
  | 6 => some t.fanVoltageRaw
  | 7 => some t.heatExchangerTemp
  | 8 => some t.glowPlugVoltageRaw
  | 9 => some t.glowPlugCurrentRaw
  | 10 => some (t.pumpFreqRaw.zeroExtend 16)
  | 11 => some (t.errorCode.zeroExtend 16)
  | 12 => some (t.errorSel.zeroExtend 16)
  | 13 => some (t.runStateSel.zeroExtend 16)
  | _ => none

/-- The factor from the raw integer of field T<n> to its physical value (R154); the codes, selectors and on_off have none. -/
def scaleOf : Nat → Option Rat
  | 0 => some 1
  | 1 => some 1
  | 4 => some (1 / 10)
  | 5 => some 1
  | 6 => some (1 / 10)
  | 7 => some 1
  | 8 => some (1 / 10)
  | 9 => some (1 / 100)
  | 10 => some (1 / 10)
  | _ => none

/-- The exact physical value of field T<n>: the combined raw integer times its factor (R53, R154). -/
def Telemetry.physical (t : Telemetry) (n : Nat) : Option Rat :=
  match scaleOf n, t.field n with
  | some k, some raw => some ((raw.toNat : Rat) * k)
  | _, _ => none

/-- The physical value as a consumer represents it: `realRepr` is the OPEN parameter REAL_REPR (R154, D13; log entry 13). -/
def Telemetry.rendered {ρ : Type} (realRepr : Rat → ρ) (t : Telemetry) (n : Nat) : Option ρ :=
  (t.physical n).map realRepr

/-- RUN_STATE_TEXT (R160): two texts are the source's, seven are open, and the selectors 9 to 14, never produced (R81), name none. -/
def runStateText (sel : BitVec 4) : Option String :=
  if sel = 5#4 then some "Running"
  else if sel = Config.unknownSel then some "Unknown Run State"
  else if sel ≤ 8#4 then some (Config.openRunStateText sel.toNat)
  else none

/-- ERROR_TEXT (R161): two texts are the source's, ten are open, and the selectors 11 to 14, never produced (R81), name none. -/
def errorText (sel : BitVec 4) : Option String :=
  if sel = 4#4 then some "Ignition plug failure"
  else if sel = Config.unknownSel then some "Unknown Error Code"
  else if sel ≤ 10#4 then some (Config.openErrorText sel.toNat)
  else none

/-- The run-state description of a record (R155). -/
def Telemetry.runStateDescription (t : Telemetry) : Option String := runStateText t.runStateSel

/-- The error description of a record (R156). -/
def Telemetry.errorDescription (t : Telemetry) : Option String := errorText t.errorSel

end Sys2Proof.Machine
end

