-- ==== Sys2Proof/Machine/Ops.lean ====
section
/-! DEFINITION. The named operations over the frame buffer, the byte source and the registers, which the meanings are written over. -/

namespace Sys2Proof.Machine

/-! ### The frame buffer as a memory -/

/-- The canonical form: indices strictly rising (so listed once), all above `low` or equal to it, and below 48 (R23, R50). -/
def Memory.wfFrom (low : Nat) : Memory → Bool
  | [] => true
  | (k, _) :: m => low ≤ k && k < Config.frameLen && Memory.wfFrom (k + 1) m

/-- The canonical form of the frame buffer: equal buffers are equal lists. -/
def Memory.wf (m : Memory) : Bool := Memory.wfFrom 0 m

/-- `buf[a]`: the byte the entry holds, or none where it holds no value (⊥) (R23). -/
def Memory.read : Memory → Nat → Option Byte
  | [], _ => none
  | (k, v) :: m, a => if k = a then some v else Memory.read m a

/-- `buf[a] <- v`, keeping the list in index order (R51). -/
def Memory.write : Memory → Nat → Byte → Memory
  | [], a, v => [(a, v)]
  | (k, x) :: m, a, v =>
    if a < k then (a, v) :: (k, x) :: m
    else if a = k then (a, v) :: m
    else (k, x) :: Memory.write m a v

/-- The bytes at `start .. start + n - 1`, if every one of them holds a value. -/
def Memory.readRange (m : Memory) (start : Nat) : Nat → Option (List Byte)
  | 0 => some []
  | n + 1 =>
    match m.read start, Memory.readRange m (start + 1) n with
    | some v, some vs => some (v :: vs)
    | _, _ => none

/-! ### One field at a time -/

/-- The machine with this byte source. -/
def State.setSrc (l : List Byte) (s : State) : State := { s with src := l }

/-- The machine with this schedule. -/
def State.setInputs (is : List Input) (s : State) : State := { s with inputs := is }

/-- `busy <- x`. -/
def State.setBusy (x : Bool) (s : State) : State := { s with busy := x }

/-- `mode <- m`. -/
def State.setMode (m : Mode) (s : State) : State := { s with mode := m }

/-- `buf[n] <- b; count <- n + 1`, no event: what the appending actions leave (R100, R102, R103, R116). -/
def State.appended (n : Nat) (b : Byte) (s : State) : State :=
  { s.emitNone with buf := s.buf.write n b, count := BitVec.ofNat 6 (n + 1) }

/-- The append on the machine: it stores at n, which must exist (R50), and counts the byte. -/
def State.append (n : Nat) (b : Byte) (s : State) : Except Fault State :=
  if n < Config.frameLen then .ok (s.appended n b) else .error (.noSuchEntry n)

/-- The sink's side after a READ that got v: the model's own fields (log entries 4 and 5). -/
def State.gotRead (v : Half) (draws : Nat) (s : State) : State := { s with rdData := v, freeDraws := draws }

/-- Every piece of block state at its value of R34; the byte source, and what is not the block's, as they are (R117). -/
def State.resetBlock (s : State) : State :=
  { State.reset with src := s.src, inputs := s.inputs, rdData := s.rdData, freeDraws := s.freeDraws }

/-! ### The byte source -/

/-- SrcAvail() (R55). -/
def State.srcAvail (s : State) : Bool := !s.src.isEmpty

/-- SrcRead(): the oldest byte, and the machine without it (R56). -/
def State.srcRead (s : State) : Option (Byte × State) :=
  match s.src with
  | [] => none
  | b :: rest => some (b, s.setSrc rest)

/-- PUSH of one byte (R58, R83). -/
def State.pushByte (b : Byte) (s : State) : State := s.setSrc (s.src ++ [b])

/-! ### Selection (R75) -/

/-- The decision word of the state and the byte just read (R75). -/
def State.decisionWord (s : State) (b : Byte) : DecisionWord :=
  wordOf s.mode.bit s.count (holdsEof (s.buf.read Config.prematureIdx)) (holdsStart (s.buf.read Config.alignIdx))
    (holdsEof (s.buf.read Config.eofIdx)) b

/-- The instruction the Synchronizer selects for the byte just read (R75, R76). -/
def State.selected (s : State) (b : Byte) : Instr := decodeByteStep (s.decisionWord b)

/-! ### The Synchronizer's registers -/

/-- CLEAR() (R108, R35). -/
def State.clear (s : State) : State := { s with mode := .seek, count := 0#6, buf := [] }

/-- `raise IllegalState`: TAKING THE BLOCK'S ONE EXCEPTION (R186, R107): fault <- 1, busy <- 0, event ILLEGAL_STATE, nothing else. It saves
no state and goes to no handler (R188); the return from it is RESET (R32). `{mode, count}`, which a model may keep, stay in their registers. -/
def State.raiseIllegalState (s : State) : State :=
  { s.emit .illegalState 0#2 with fault := true, busy := false }

/-- The end of an invocation (R109): busy falls. -/
def State.endInvocation (s : State) : State := s.setBusy false

/-! ### The Decoder -/

/-- The one commit of DECODE: every field and tlm_valid together (R28, R140). -/
def State.commit (t : Telemetry) (s : State) : State := { s with tlm := some t, tlmValid := true }

/-- DECODE(frame) (R140), with the defensive length check kept (R158, log entry 14). -/
def State.decodeFrame (bytes : List Byte) (s : State) : State :=
  match frameOfBytes bytes with
  | some f => s.commit (telemetryOf f)
  | none => s.emit .shortFrame 0#2

/-- `buf[0..46] ++ [b]` (R105), if the 47 entries hold values. -/
def State.completedFrame (s : State) (b : Byte) : Option (List Byte) :=
  (s.buf.readRange 0 47).map (· ++ [b])

/-! ### The read port -/

/-- The port `rd_data` for an index (R78, R118): no field above T13 (none); the field zero-extended; and while the record holds no value, a
free value. DESIGN CHOICE (log entry 4): the spec lets the port show any value then (93_implementation_defined.md I9), in every cycle and for
every index anew; here the free value hangs on `freeDraws` alone, so it is one value for all of rd_idx 0 to 13 and in every cycle until a READ
draws it. -/
def State.rdPort (s : State) (idx : BitVec 4) : Option Half :=
  if idx.toNat ≤ 13 then
    match s.tlmValid, s.tlm with
    | true, some t => t.field idx.toNat
    | _, _ => some (Config.freeRdData s.freeDraws)
  else none

/-- Whether a READ draws a free value: the record holds none (R27). -/
def State.readsFree (s : State) : Bool := !(s.tlmValid && s.tlm.isSome)

end Sys2Proof.Machine
end

