-- ==== Sys2Proof/Machine/Accumulate.lean ====
section
/-! DEFINITION. The byte-step actions taken while Accumulating (40_synchronizer.md R102 to R106). -/

namespace Sys2Proof.Machine

/-- ACC_APPEND (R102), n being the fill count. -/
def execAccAppend (b : Byte) (s : State) : Host.Outcome State Fault Refusal :=
  match s.append s.count.toNat b with
  | .ok t => .next t
  | .error f => .fault f

/-- ACC_CHK24_PASS (R103): `buf[23] <- b; count <- 24`, where `buf[21]` holds a value. The row is selected with z21 = 0 also where the entry
holds none (R75), and then the premature check has read it: IllegalState (R24). -/
def execAccChk24Pass (b : Byte) (s : State) : Host.Outcome State Fault Refusal :=
  match s.buf.read Config.prematureIdx with
  | some _ =>
    match s.append 23 b with
    | .ok t => .next t
    | .error f => .fault f
  | none => .next s.raiseIllegalState

/-- ACC_CHK24_DISCARD (R104): CLEAR, emit PREMATURE_EOF(0), and the abort, which ends the invocation at the end of this step. -/
def execAccChk24Discard (s : State) : Host.Outcome State Fault Refusal :=
  .next (s.clear.emit .prematureEof 0#2).endInvocation

/-- ACC_DONE_OK (R105): DECODE(buf[0..46] ++ [b]), CLEAR, emit FRAME_OK(0); a read of an entry that holds no value is IllegalState (R24). -/
def execAccDoneOk (b : Byte) (s : State) : Host.Outcome State Fault Refusal :=
  match s.completedFrame b with
  | some frame => .next ((s.decodeFrame frame).clear.emit .frameOk 0#2)
  | none => .next s.raiseIllegalState

/-- ACC_DONE_BAD (R106): CLEAR, emit MARKER_FAIL(info); a read of an entry that holds no value is IllegalState (R24). -/
def execAccDoneBad (s : State) : Host.Outcome State Fault Refusal :=
  match s.buf.read Config.alignIdx, s.buf.read Config.eofIdx with
  | some a, some e => .next (s.clear.emit .markerFail (markerInfo a e))
  | _, _ => .next s.raiseIllegalState

end Sys2Proof.Machine
end

