-- ==== Sys2Proof/Machine/HostOps.lean ====
section
/-! DEFINITION. The host operations: POLL, RESET and the sink's READ (40_synchronizer.md R109, R110, R117, R118). -/

namespace Sys2Proof.Machine

/-- POLL (R109) as the event it is at its clock edge (R217): an invocation starts, `busy <- 1`, and no byte is consumed at this edge; while
busy = 1 or fault = 1 it has no effect (R110). The loop of R109 is the steps that follow while busy = 1 (Machine/Edge.lean); as one
function it is `State.invocation` (Machine/Invocation.lean), and log entry 1 says why. -/
def execPoll (s : State) : Host.Outcome State Fault Refusal :=
  .next (if s.busy || s.fault then s else s.setBusy true)

/-- RESET (R117): every piece of block state to its value of R34; the byte source, and what is not the block's, are left as they are. -/
def execReset (s : State) : Host.Outcome State Fault Refusal :=
  .next s.resetBlock

/-- READ T<idx> (R118): the sink gets what the port shows; the block's state is unchanged. `rd_idx` 14 and 15 are refused. -/
def execRead (idx : BitVec 4) (s : State) : Host.Outcome State Fault Refusal :=
  match s.rdPort idx with
  | some v => .next (s.gotRead v (if s.readsFree then s.freeDraws + 1 else s.freeDraws))
  | none => .refused (.noTelemetryField idx)

end Sys2Proof.Machine
end

