-- ==== Sys2Proof/Machine/Seek.lean ====
section
/-! DEFINITION. The byte-step actions taken in SeekingStart, and ILLEGAL_STATE (40_synchronizer.md R100, R101, R107). -/

namespace Sys2Proof.Machine

/-- SEEK_START (R100): `buf[0] <- b; count <- 1; mode <- ACC`, where b is the start marker. -/
def execSeekStart (s : State) : Host.Outcome State Fault Refusal :=
  match s.append 0 Config.startMarker with
  | .ok t => .next (t.setMode .acc)
  | .error f => .fault f

/-- SEEK_DROP (R101): nothing is written; the byte, already consumed, is lost. -/
def execSeekDrop (s : State) : Host.Outcome State Fault Refusal :=
  .next s.emitNone

/-- ILLEGAL_STATE (R107). -/
def execIllegalState (s : State) : Host.Outcome State Fault Refusal :=
  .next s.raiseIllegalState

end Sys2Proof.Machine
end

