-- ==== Sys2Proof/Machine/Dispatch.lean ====
section
/-! DEFINITION. One arm per instruction. The operands of the decision word that an arm leaves out (the condition bits, m and c) are bits
of the state itself, which the meaning reads where it stands (R75, log entry 9). -/

namespace Sys2Proof.Machine

def exec (i : Instr) (s : State) : Host.Outcome State Fault Refusal :=
  match i with
  | .seekStart _ _ _ => Sys2Proof.Machine.execSeekStart s
  | .seekDrop _ _ _ _ => Sys2Proof.Machine.execSeekDrop s
  | .accChk24Discard _ _ _ => Sys2Proof.Machine.execAccChk24Discard s
  | .accChk24Pass _ _ b => Sys2Proof.Machine.execAccChk24Pass b s
  | .accDoneOk _ b => Sys2Proof.Machine.execAccDoneOk b s
  | .accDoneBad _ _ _ _ => Sys2Proof.Machine.execAccDoneBad s
  | .accAppend _ _ _ _ b => Sys2Proof.Machine.execAccAppend b s
  | .illegalState _ _ _ _ _ _ => Sys2Proof.Machine.execIllegalState s
  | .poll => Sys2Proof.Machine.execPoll s
  | .reset _ => Sys2Proof.Machine.execReset s
  | .read idx => Sys2Proof.Machine.execRead idx s

end Sys2Proof.Machine
end

