-- ==== Sys2Proof/Machine/Edge.lean ====
section
/-! DEFINITION. What one step does around the instruction it runs: it takes the next input, and at a clock edge selects the host event or
the byte step (70_reset_and_hazards.md R217, 40_synchronizer.md R109). -/

namespace Sys2Proof.Machine

/-- The instruction a host event word starts at an edge: RESET always, POLL unless an invocation is running, in which case it has no
effect and the byte step of the edge goes on (R77, R110, R217). -/
def State.hostEvent (s : State) (h : BitVec 2) : Option Instr :=
  match decodeHost h with
  | .ok .poll => if s.busy then none else some .poll
  | .ok i => some i
  | .error _ => none

/-- An edge with no host event to run: one turn of the loop of R109 while an invocation is running, and nothing otherwise. While
fault = 1 no byte is read (R32) and the invocation ends (R109; log entry 7). -/
def State.drainEdge (s : State) : Host.Outcome State Fault Refusal :=
  if s.busy then
    if s.fault then .next s.endInvocation
    else
      match s.srcRead with
      | none => .next s.endInvocation
      | some (b, t) => exec (t.selected b) t
  else .next s

/-- A clock edge at which the host drives h. The strobe of the edge before ends (R31, R217). -/
def State.clockEdge (h : BitVec 2) (s : State) : Host.Outcome State Fault Refusal :=
  match s.emitNone.hostEvent h with
  | some i => exec i s.emitNone
  | none => s.emitNone.drainEdge

/-- The sink's READ between two edges (R118, R217). -/
def State.sinkRead (idx : BitVec 4) (s : State) : Host.Outcome State Fault Refusal :=
  match decodeSink idx with
  | .ok i => exec i s
  | .error _ => .refused (.noTelemetryField idx)

/-- One input of the schedule, already taken off it. -/
def State.runInput (x : Input) (s : State) : Host.Outcome State Fault Refusal :=
  match x with
  | .push b => .next (s.pushByte b)
  | .edge h => s.clockEdge h
  | .read idx => s.sinkRead idx

/-- The next input, or an edge with h = 00 when the schedule is empty (log entry 2). -/
def State.takeInput (s : State) : Host.Outcome State Fault Refusal :=
  match s.inputs with
  | [] => s.clockEdge 0b00#2
  | x :: xs => (s.setInputs xs).runInput x

/-! ### Placing a word where the next step fetches it (log entry 11) -/

/-- Buffer entries that give the condition bits asked for: the entries below `c`, and those the bits concern. -/
def placedEntry (c : Nat) (z21 s24 z45 : Bool) (i : Nat) : Option Host.Cell :=
  if i = Config.prematureIdx then
    if z21 then some (i, Config.eofMarker) else if i < c then some (i, 0x01#8) else none
  else if i = Config.alignIdx then
    if s24 then some (i, Config.startMarker) else if i < c then some (i, 0x00#8) else none
  else if i = Config.eofIdx then
    if z45 then some (i, Config.eofMarker) else if i < c then some (i, 0x01#8) else none
  else if i < c then some (i, if i = 0 then Config.startMarker else 0x00#8)
  else none

/-- The buffer of a placed decision word. -/
def placedBuffer (c : Nat) (z21 s24 z45 : Bool) : Memory :=
  (List.range Config.frameLen).filterMap (placedEntry c z21 s24 z45)

/-- The machine whose next step forms the decision word w: an invocation is running, the byte is the oldest of the source, and mode, count
and buffer are those the word says. -/
def State.placeDecision (w : DecisionWord) (s : State) : State :=
  { s with
    mode := Mode.ofBit (wordM w)
    count := wordC w
    buf := placedBuffer (wordC w).toNat (wordZ21 w) (wordS24 w) (wordZ45 w)
    busy := true
    fault := false
    src := wordB w :: s.src
    inputs := .edge 0b00#2 :: s.inputs }

/-- The machine whose next step meets the word e. -/
def State.place (e : Encoded) (s : State) : State :=
  match e with
  | .byteStep w => s.placeDecision w
  | .host h => { s with busy := false, fault := false, inputs := .edge h :: s.inputs }
  | .sink idx => s.setInputs (.read idx :: s.inputs)

end Sys2Proof.Machine
end

