-- ==== Sys2Proof/Machine/Step.lean ====
section
/-! DEFINITION. The step of the machine, and the placing of a table word where it fetches. -/

namespace Sys2Proof.Machine

/-- One step: one input of the schedule, or one quiet clock edge. -/
def step (s : State) : Host.Outcome State Fault Refusal := s.takeInput

/-- The machine whose next step runs the instruction of a word of spec/opcode_table.json (log entry 11). -/
def State.withFetchWord (s : State) (nbits w : Nat) : State :=
  match encodedOfTable nbits w with
  | .ok e => s.place e
  | .error _ => s

end Sys2Proof.Machine
end

