-- ==== Sys2Proof/Machine/Invocation.lean ====
section
/-! DEFINITION. The operations of 40_synchronizer.md as whole functions: the byte step of R116, the invocation of R109 as one loop, and the
host scripts of 30_encoding.md R83. They are the clear form beside the machine's steps: statements say that the steps compute them. -/

namespace Sys2Proof.Machine

/-- BYTESTEP(b) (R116): the state it leaves, with the event on the event output, and whether it aborts the invocation. A read of an entry
that holds no value is IllegalState (R24). -/
def byteStep (b : Byte) (s : State) : State × Bool :=
  if s.mode = .seek ∧ s.count = 0#6 then
    if b = Config.startMarker then ((s.appended 0 b).setMode .acc, false)
    else (s.emitNone, false)
  else if s.mode = .acc ∧ 1 ≤ s.count.toNat ∧ s.count.toNat ≤ 47 then
    if s.count.toNat = 23 then
      match s.buf.read Config.prematureIdx with
      | none => (s.raiseIllegalState, true)
      | some v =>
        if v = Config.eofMarker then (s.clear.emit .prematureEof 0#2, true)
        else (s.appended 23 b, false)
    else if s.count.toNat = 47 then
      match s.buf.read Config.eofIdx, s.buf.read Config.alignIdx with
      | some e, some a =>
        if e = Config.eofMarker ∧ a = Config.startMarker then
          match s.completedFrame b with
          | some frame => ((s.decodeFrame frame).clear.emit .frameOk 0#2, false)
          | none => (s.raiseIllegalState, true)
        else (s.clear.emit .markerFail (markerInfo a e), false)
      | _, _ => (s.raiseIllegalState, true)
    else (s.appended s.count.toNat b, false)
  else (s.raiseIllegalState, true)

/-- The loop of R109 over the bytes the source holds: the state when the invocation ends, and the events its byte steps emitted, in order. -/
def State.drain : List Byte → State → State × List (BitVec 3 × BitVec 2)
  | [], s => ((s.emitNone.setSrc []).endInvocation, [])
  | b :: rest, s =>
    let r := byteStep b (s.setSrc rest)
    let seen := if r.1.evtStrobe then [(r.1.evtCode, r.1.evtInfo)] else []
    if r.2 || r.1.fault then (r.1.endInvocation, seen)
    else
      let d := State.drain rest r.1
      (d.1, seen ++ d.2)

/-- POLL() as one operation (R109), with the events in order; while busy = 1 or fault = 1 it has no effect (R110). -/
def State.invocation (s : State) : State × List (BitVec 3 × BitVec 2) :=
  if s.busy || s.fault then (s, []) else State.drain s.src (s.setBusy true)

/-! ### Host scripts (R83) -/

/-- The statements of the script notation. `PUSH F` for a frame F is PUSH of its 48 bytes. -/
inductive ScriptLine where
  /-- `RESET` -/
  | reset
  /-- `PUSH b0 b1 ...` -/
  | push (bytes : List Byte)
  /-- `POLL`, run until the invocation ends -/
  | poll
  /-- `READ Tn` -/
  | read (idx : BitVec 4)
  /-- `; text` -/
  | comment (text : String)
  deriving DecidableEq, Repr

/-- The events a POLL line records, in order: code and info (R83). -/
abbrev PollRecord := List (BitVec 3 × BitVec 2)

/-- One line of a script, run to its end, with the record it leaves if it is a POLL line. A POLL line ends when the host has seen busy fall,
in a cycle in which no event is driven any more. -/
def runLine (l : ScriptLine) (s : State) : Host.Outcome (State × List PollRecord) Fault Refusal :=
  match l with
  | .reset => .next (s.resetBlock, [])
  | .push bytes => .next (s.setSrc (s.src ++ bytes), [])
  | .poll => .next (s.emitNone.invocation.1.emitNone, [s.emitNone.invocation.2])
  | .read idx =>
    match s.sinkRead idx with
    | .next t => .next (t, [])
    | .fault f => .fault f
    | .refused r => .refused r
  | .comment _ => .next (s, [])

/-- A script, line after line, with the record of each POLL line, in order. A refused READ ends it (R118). -/
def runScript : List ScriptLine → State → Host.Outcome (State × List PollRecord) Fault Refusal
  | [], s => .next (s, [])
  | l :: ls, s =>
    match runLine l s with
    | .fault f => .fault f
    | .refused r => .refused r
    | .next (t, record) =>
      match runScript ls t with
      | .fault f => .fault f
      | .refused r => .refused r
      | .next (u, records) => .next (u, record ++ records)

/-- The inputs by which the host carries out a line on the machine, where at most `avail` bytes are in the source: `RESET` is one edge, `PUSH`
one input a byte, and `POLL` its edge and then edges with h = 00 until the invocation has ended, of which it needs at most one a byte and one
more (log entry 11). -/
def lineInputs (avail : Nat) : ScriptLine → List Input
  | .reset => [.edge 0b10#2]
  | .push bytes => bytes.map .push
  | .poll => .edge 0b01#2 :: List.replicate (avail + 1) (.edge 0b00#2)
  | .read idx => [.read idx]
  | .comment _ => []

/-- How many bytes can be in the source after a line. -/
def availAfter (avail : Nat) : ScriptLine → Nat
  | .push bytes => avail + bytes.length
  | .reset => avail
  | .poll => avail
  | .read _ => avail
  | .comment _ => avail

/-- The inputs of a whole script. -/
def scriptInputs : Nat → List ScriptLine → List Input
  | _, [] => []
  | avail, l :: ls => lineInputs avail l ++ scriptInputs (availAfter avail l) ls

/-- Whether an input is an event of the host: a PUSH (R58), or an edge with POLL or RESET (R77). An edge with h = 00 is none, and "the sink's
READ is not an event" (R77). -/
def Input.isHostEvent : Input → Bool
  | .push _ => true
  | .edge h => h != 0#2
  | .read _ => false

end Sys2Proof.Machine
end

