-- ==== Sys2Proof/Machine/Ports.lean ====
section
/-! DEFINITION. The block's ports as functions of the state (30_encoding.md R78). -/

namespace Sys2Proof.Machine

/-- `src_data`: the oldest available byte, meaningful only when `src_avail` = 1 (R78). -/
def State.srcData (s : State) : Option Byte := s.src.head?

/-- `src_read` in the cycle before an edge at which the host drives h: the byte is consumed at this edge (R57, R217), which a RESET of the
same edge (R214) and a standing fault (R32) prevent. -/
def State.srcReadPort (s : State) (h : BitVec 2) : Bool :=
  s.busy && s.srcAvail && !s.fault && (!h.getLsbD 1)

/-- The output ports of R78 for the inputs h and rd_idx; `rdData` is none where rd_idx names no field, and
while tlm_valid = 0 it is the free value of `State.rdPort`, with the choice marked there (log entry 4). -/
structure Outputs where
  srcRead : Bool
  busy : Bool
  evtStrobe : Bool
  evtCode : BitVec 3
  evtInfo : BitVec 2
  fault : Bool
  tlmValid : Bool
  rdData : Option Half
  deriving DecidableEq, Repr

/-- What the block drives on its output ports (R78). -/
def State.outputs (s : State) (h : BitVec 2) (rdIdx : BitVec 4) : Outputs :=
  { srcRead := s.srcReadPort h
    busy := s.busy
    evtStrobe := s.evtStrobe
    evtCode := s.evtCode
    evtInfo := s.evtInfo
    fault := s.fault
    tlmValid := s.tlmValid
    rdData := s.rdPort rdIdx }

end Sys2Proof.Machine
end

