-- ==== Sys2Proof/Safety.lean ====
section
/-! DEFINITION. What the statements are said in: the invariant of the machine, the end of a run, and what two states share. -/

namespace Sys2Proof.Safety

open Sys2Proof.Machine

/-- R22: `mode = SEEK` if and only if `count = 0`, and a count of at most 47. -/
def ModeCount (s : State) : Prop :=
  (s.mode = .seek ↔ s.count = 0#6) ∧ s.count.toNat ≤ 47

/-- R23, R50: the buffer is in canonical form and entry i holds a value if and only if i < count. -/
def BufferHeld (s : State) : Prop :=
  s.buf.wf = true ∧ ∀ i : Fin 48, (s.buf.read i.val).isSome = decide (i.val < s.count.toNat)

/-- R72, R100, R104: a candidate begins with the start marker, and past 24 bytes it does not hold the end marker at index 21. -/
def CandidateMarkers (s : State) : Prop :=
  (0 < s.count.toNat → s.buf.read 0 = some Config.startMarker) ∧
  (24 ≤ s.count.toNat → s.buf.read Config.prematureIdx ≠ some Config.eofMarker)

/-- R27, R81: the record holds no value exactly while tlm_valid = 0, and its selectors are those of its codes. -/
def TelemetrySound (s : State) : Prop :=
  s.tlmValid = s.tlm.isSome ∧
  ∀ t, s.tlm = some t → t.errorSel = errSel t.errorCode ∧ t.runStateSel = runSel t.runStateCode

/-- R79, R80, R82: the strobe is 1 exactly when the code is not 0; codes 4, 6 and 7 are never driven; info is not 0 exactly for MARKER_FAIL. -/
def EventSound (s : State) : Prop :=
  (s.evtStrobe = true ↔ s.evtCode ≠ 0#3) ∧
  (s.evtCode ≠ 4#3 ∧ s.evtCode ≠ 6#3 ∧ s.evtCode ≠ 7#3) ∧
  (s.evtInfo ≠ 0#2 ↔ s.evtCode = 3#3)

/-- The invariant every step keeps. -/
structure Inv (s : State) : Prop where
  modeCount : ModeCount s
  buffer : BufferHeld s
  markers : CandidateMarkers s
  telemetry : TelemetrySound s
  event : EventSound s
  /-- R186: a fault ends the invocation. -/
  faultIdle : s.fault = true → s.busy = false
  /-- R107: the event ILLEGAL_STATE is driven only with the fault. -/
  faultEvent : s.evtCode = 5#3 → s.fault = true

/-- The byte step the state selects reads a buffer entry that holds no value: the premature check at 21, a completion check at 24 or 45, or,
where both completion markers hold, DECODE at one of the 47 entries (R24). -/
def ReadsEmptyEntry (s : State) : Prop :=
  s.mode = .acc ∧
  ((s.count = 23#6 ∧ s.buf.read Config.prematureIdx = none) ∨
    (s.count = 47#6 ∧
      (s.buf.read Config.alignIdx = none ∨ s.buf.read Config.eofIdx = none ∨
        (s.buf.read Config.alignIdx = some Config.startMarker ∧ s.buf.read Config.eofIdx = some Config.eofMarker ∧
          ∃ k : Fin 47, s.buf.read k.val = none))))

/-- The Telemetry record and its valid bit are the same (R29). -/
def SameTelemetry (s t : State) : Prop := t.tlm = s.tlm ∧ t.tlmValid = s.tlmValid

/-- The Synchronizer's mode and fill count are the same, and every byte of the buffer reads as before. -/
def SameSync (s t : State) : Prop :=
  t.mode = s.mode ∧ t.count = s.count ∧ ∀ a : Nat, t.buf.read a = s.buf.read a

/-- What is not the block's is the same: the byte source, the schedule, and the sink's side. -/
def SameOutside (s t : State) : Prop :=
  t.src = s.src ∧ t.inputs = s.inputs ∧ t.rdData = s.rdData ∧ t.freeDraws = s.freeDraws

/-- The event output is the same. -/
def SameEvent (s t : State) : Prop :=
  t.evtStrobe = s.evtStrobe ∧ t.evtCode = s.evtCode ∧ t.evtInfo = s.evtInfo

/-- The event output drives this code and info, the strobe being 1 exactly when the code is not 0 (R79). -/
def Drives (t : State) (code : BitVec 3) (info : BitVec 2) : Prop :=
  t.evtStrobe = (code != 0#3) ∧ t.evtCode = code ∧ t.evtInfo = info

/-- SeekingStart with count 0 and no byte held, as CLEAR leaves the Synchronizer (R108). -/
def Cleared (t : State) : Prop :=
  t.mode = .seek ∧ t.count = 0#6 ∧ ∀ a : Nat, t.buf.read a = none

/-- The machine after k steps, if none of them stops. -/
def After (k : Nat) (s t : State) : Prop :=
  Host.Core.run { State := State, Fault := Fault, Refusal := Refusal, step := step, reset := State.reset } k s = .next t

/-- The event a step put on the event output: only an edge drives it, so a PUSH or a READ adds none (R31, R217). -/
def stepEvents (s t : State) : List (BitVec 3 × BitVec 2) :=
  match s.inputs with
  | .push _ :: _ => []
  | .read _ :: _ => []
  | _ => if t.evtStrobe then [(t.evtCode, t.evtInfo)] else []

/-- The events of k steps, in order (R185, R218). -/
def eventsAfter : Nat → State → List (BitVec 3 × BitVec 2)
  | 0, _ => []
  | k + 1, s =>
    match step s with
    | .next t => stepEvents s t ++ eventsAfter k t
    | _ => []

/-- Seeking, with no invocation running and no fault, as after RESET and after every candidate. -/
def Idle (s : State) : Prop := s.mode = .seek ∧ s.busy = false ∧ s.fault = false

/-- The end of a run (R218): no invocation, no byte available, and no host event to come. READs and edges with h = 00 may still come. -/
def EndOfRun (s : State) : Prop :=
  s.busy = false ∧ s.srcAvail = false ∧ ∀ x ∈ s.inputs, x.isHostEvent = false

/-- What a claim about a finished run may speak of, beside the events (R218). -/
structure Observation where
  tlm : Option Telemetry
  tlmValid : Bool
  fault : Bool
  deriving DecidableEq, Repr

/-- R218. -/
def observe (s : State) : Observation := { tlm := s.tlm, tlmValid := s.tlmValid, fault := s.fault }

/-- A good end of a run: "A state with `fault = 1` is never a good end of a run" (R218). -/
def GoodEnd (s : State) : Prop := EndOfRun s ∧ s.fault = false

/-- The markers of a well-formed frame (R71). -/
def WellFormedFrame (f : Frame) : Prop :=
  f[0] = Config.startMarker ∧ f[21] ≠ Config.eofMarker ∧ f[24] = Config.startMarker ∧ f[45] = Config.eofMarker

/-- The values of the twelve raw fields T0 to T11 of a frame as numbers, at global frame offsets, high byte first (R71, R52). -/
def RawFieldsOf (f : Frame) (r : Telemetry) : Prop :=
  r.setTemp = f[3] ∧ r.desiredTemp = f[4] ∧ r.runStateCode = f[26] ∧ (r.onOff = true ↔ f[27] = 1#8) ∧
  r.supplyVoltageRaw.toNat = 256 * f[28].toNat + f[29].toNat ∧
  r.fanSpeed.toNat = 256 * f[30].toNat + f[31].toNat ∧
  r.fanVoltageRaw.toNat = 256 * f[32].toNat + f[33].toNat ∧
  r.heatExchangerTemp.toNat = 256 * f[34].toNat + f[35].toNat ∧
  r.glowPlugVoltageRaw.toNat = 256 * f[36].toNat + f[37].toNat ∧
  r.glowPlugCurrentRaw.toNat = 256 * f[38].toNat + f[39].toNat ∧
  r.pumpFreqRaw = f[40] ∧ r.errorCode = f[41]

/-- The frame offsets the Decoder reads (R71); the others are "not interpreted" or markers. -/
def decodedOffsets : List Nat := [3, 4, 26, 27, 28, 29, 30, 31, 32, 33, 34, 35, 36, 37, 38, 39, 40, 41]

/-- The offsets at which a frame's bytes decide anything at all (R71, R74): those and the four markers. -/
def interpretedOffsets : List Nat := [0, 21, 24, 45] ++ decodedOffsets

end Sys2Proof.Safety
end

