-- ==== Sys2Proof/Certificates/Slice0/Obligations.lean ====
section
/-! DEFINITION. The statements for the provers. Each docstring names the rules of spec/ it formalises. -/

open Sys2Proof Sys2Proof.Machine Sys2Proof.Safety

/-! ### Encodings -/

/-- 30_encoding.md R75 to R78: encoding a well-formed instruction and decoding its word gives it back, with every operand bit. -/
def Obligations.DecodeEncodeAgree : Prop :=
  ∀ i : Instr, i.wf = true → decode (encode i) = .ok i

/-- 30_encoding.md R75 to R78, the other direction: whatever the decoder reads from a word is well-formed and encodes to that word, so no two
words share an instruction and no word is read as a neighbour's. RESET, POLL and READ words are included. -/
def Obligations.DecodedWordReencodes : Prop :=
  ∀ (e : Encoded) (i : Instr), decode e = .ok i → i.wf = true ∧ encode i = e

/-- Words written out bit by bit from 30_encoding.md R75, R77 and 95_test_vectors.md (V1, V9, V12) decode to what they stand for. -/
def Obligations.SpecWordsDecode : Prop :=
  decode (.byteStep 0b0_000000_0_0_0_01110110#18) = .ok (.seekStart false false false) ∧
  decode (.byteStep 0b0_000000_0_0_0_01010101#18) = .ok (.seekDrop false false false 0x55#8) ∧
  decode (.byteStep 0x2BC01#18) = .ok (.accChk24Discard false false 0x01#8) ∧
  decode (.byteStep 0b1_010111_0_0_0_00000000#18) = .ok (.accChk24Pass false false 0x00#8) ∧
  decode (.byteStep 0x37F00#18) = .ok (.accDoneOk true 0x00#8) ∧
  decode (.byteStep 0b1_101111_0_1_0_11111111#18) = .ok (.accDoneBad false true false 0xFF#8) ∧
  decode (.byteStep 0b1_000101_0_0_0_00000000#18) = .ok (.accAppend 5#6 false false false 0x00#8) ∧
  decode (.byteStep 0b0_000101_0_0_0_01110110#18) = .ok (.illegalState false 5#6 false false false 0x76#8) ∧
  decode (.host 0b01#2) = .ok .poll ∧ decode (.host 0b10#2) = .ok (.reset false) ∧ decode (.host 0b11#2) = .ok (.reset true) ∧
  decode (.sink 13#4) = .ok (.read 13#4) ∧ decode (.sink 14#4) = .error (.noTelemetryField 14#4)

/-! ### What a step runs -/

/-- 40_synchronizer.md R109, 70_reset_and_hazards.md R217: at an edge without RESET, while an invocation runs and a byte is available, the step
consumes the oldest byte and runs the instruction its decision word decodes to, the strobe of the edge before having ended. A POLL of the same
edge has no effect (R110). The schedule (`inputs`) is the model's own (log entry 2): empty, it stands for edges with h = 00. -/
def Obligations.EdgeRunsSelectedByteStep : Prop :=
  ∀ (s : State) (b : Byte) (rest : List Byte) (i : Instr), s.busy = true → s.fault = false → s.src = b :: rest →
    decode (.byteStep (s.decisionWord b)) = .ok i →
    (∀ (h : BitVec 2) (is : List Input), s.inputs = .edge h :: is → h.getLsbD 1 = false →
      step s = exec i ((s.emitNone.setInputs is).setSrc rest)) ∧
    (s.inputs = [] → step s = exec i (s.emitNone.setSrc rest))

/-- 30_encoding.md R77, 70_reset_and_hazards.md R217: an edge at which the host event word decodes to RESET runs it, and one at which it decodes
to POLL while no invocation runs runs that. -/
def Obligations.EdgeRunsHostEvent : Prop :=
  ∀ (s : State) (h : BitVec 2) (is : List Input), s.inputs = .edge h :: is →
    (∀ p, decode (.host h) = .ok (.reset p) → step s = exec (.reset p) (s.emitNone.setInputs is)) ∧
    (decode (.host h) = .ok .poll → s.busy = false → step s = exec .poll (s.emitNone.setInputs is))

/-- 40_synchronizer.md R118: the sink's read runs READ of the index, and the indices 14 and 15 are refused. -/
def Obligations.SinkReadRunsRead : Prop :=
  ∀ (s : State) (idx : BitVec 4) (is : List Input), s.inputs = .read idx :: is →
    (∀ i, decode (.sink idx) = .ok i → step s = exec i (s.setInputs is)) ∧
    (14 ≤ idx.toNat → step s = .refused (.noTelemetryField idx))

/-- 20_memory.md R58, 30_encoding.md R83: a PUSH appends one byte to the byte source and does nothing else, whatever the block is doing. The
schedule and the absence of a bound on the source are the model's own (log entries 2 and 3). -/
def Obligations.PushAppendsToSource : Prop :=
  ∀ (s : State) (b : Byte) (is : List Input), s.inputs = .push b :: is →
    ∃ t, step s = .next t ∧ t.src = s.src ++ [b] ∧ t.inputs = is ∧ SameSync s t ∧ SameTelemetry s t ∧ SameEvent s t ∧
      t.busy = s.busy ∧ t.fault = s.fault ∧ t.rdData = s.rdData ∧ t.freeDraws = s.freeDraws

/-- 70_reset_and_hazards.md R217, 40_synchronizer.md R109, R110: the edges at which no instruction has an effect. An invocation that finds no
byte ends; without POLL an idle block stays as it is; a POLL while fault = 1 has no effect. The event output is driven to 0 each time. -/
def Obligations.QuietEdgesChangeOnlyBusy : Prop :=
  ∀ (s : State) (h : BitVec 2) (is : List Input), s.inputs = .edge h :: is → h.getLsbD 1 = false →
    (s.busy = true ∧ s.src = []) ∨ (s.busy = false ∧ (h = 0#2 ∨ s.fault = true)) →
    ∃ t, step s = .next t ∧ t.busy = false ∧ Drives t 0#3 0#2 ∧ SameSync s t ∧ SameTelemetry s t ∧ t.fault = s.fault ∧
      t.src = s.src ∧ t.inputs = is ∧ t.rdData = s.rdData ∧ t.freeDraws = s.freeDraws

/-! ### The byte-step actions: when each is selected, what it does, and what it leaves unchanged -/

/-- R100. -/
def Obligations.SeekStartBeginsCandidate : Prop :=
  (∀ (s : State) (b : Byte),
    (∃ z21 s24 z45, s.selected b = .seekStart z21 s24 z45) ↔ s.mode = .seek ∧ s.count = 0#6 ∧ b = 0x76#8) ∧
  ∀ (s : State) (z21 s24 z45 : Bool), s.mode = .seek → s.count = 0#6 →
    ∃ t, exec (.seekStart z21 s24 z45) s = .next t ∧ t.mode = .acc ∧ t.count = 1#6 ∧ t.buf.read 0 = some 0x76#8 ∧
      (∀ a : Nat, a ≠ 0 → t.buf.read a = s.buf.read a) ∧ Drives t 0#3 0#2 ∧
      SameTelemetry s t ∧ t.busy = s.busy ∧ t.fault = s.fault ∧ SameOutside s t

/-- R101. The last clause is the byte step in the machine, at every edge without RESET: the byte is consumed and lost. -/
def Obligations.SeekDropWritesNothing : Prop :=
  (∀ (s : State) (b : Byte),
    (∃ z21 s24 z45, s.selected b = .seekDrop z21 s24 z45 b) ↔ s.mode = .seek ∧ s.count = 0#6 ∧ b ≠ 0x76#8) ∧
  ∀ (s : State) (z21 s24 z45 : Bool) (b : Byte), s.mode = .seek → s.count = 0#6 → b ≠ 0x76#8 →
    (∃ t, exec (.seekDrop z21 s24 z45 b) s = .next t ∧ SameSync s t ∧ Drives t 0#3 0#2 ∧
      SameTelemetry s t ∧ t.busy = s.busy ∧ t.fault = s.fault ∧ SameOutside s t) ∧
    (∀ (h : BitVec 2) (is : List Input) (rest : List Byte), s.inputs = .edge h :: is → h.getLsbD 1 = false →
      s.busy = true → s.fault = false → s.src = b :: rest →
      ∃ t, step s = .next t ∧ t.src = rest ∧ SameSync s t ∧ SameTelemetry s t ∧ Drives t 0#3 0#2 ∧ t.busy = true ∧ t.fault = false)

/-- R102: the byte is stored at the fill count, which goes up by one. -/
def Obligations.AppendStoresAtCount : Prop :=
  (∀ (s : State) (b : Byte),
    (∃ z21 s24 z45, s.selected b = .accAppend s.count z21 s24 z45 b) ↔
      s.mode = .acc ∧ 1 ≤ s.count.toNat ∧ s.count.toNat ≤ 46 ∧ s.count ≠ 23#6) ∧
  ∀ (s : State) (c : Count) (z21 s24 z45 : Bool) (b : Byte),
    s.mode = .acc → 1 ≤ s.count.toNat → s.count.toNat ≤ 46 → s.count ≠ 23#6 →
    ∃ t, exec (.accAppend c z21 s24 z45 b) s = .next t ∧ t.mode = .acc ∧ t.count.toNat = s.count.toNat + 1 ∧
      t.buf.read s.count.toNat = some b ∧ (∀ a : Nat, a ≠ s.count.toNat → t.buf.read a = s.buf.read a) ∧ Drives t 0#3 0#2 ∧
      SameTelemetry s t ∧ t.busy = s.busy ∧ t.fault = s.fault ∧ SameOutside s t

/-- R103: the 24th byte is stored where index 21 does not hold the end marker. -/
def Obligations.Chk24PassStoresByte23 : Prop :=
  (∀ (s : State) (b : Byte),
    (∃ s24 z45, s.selected b = .accChk24Pass s24 z45 b) ↔
      s.mode = .acc ∧ s.count = 23#6 ∧ s.buf.read 21 ≠ some 0x00#8) ∧
  ∀ (s : State) (s24 z45 : Bool) (b v : Byte), s.mode = .acc → s.count = 23#6 → s.buf.read 21 = some v → v ≠ 0x00#8 →
    ∃ t, exec (.accChk24Pass s24 z45 b) s = .next t ∧ t.mode = .acc ∧ t.count = 24#6 ∧ t.buf.read 23 = some b ∧
      (∀ a : Nat, a ≠ 23 → t.buf.read a = s.buf.read a) ∧ Drives t 0#3 0#2 ∧
      SameTelemetry s t ∧ t.busy = s.busy ∧ t.fault = s.fault ∧ SameOutside s t

/-- R104: CLEAR, PREMATURE_EOF, and the abort, which ends the invocation with the step; and in the machine, at every edge
without RESET, the bytes after the 24th stay in the source. -/
def Obligations.Chk24DiscardEndsInvocation : Prop :=
  (∀ (s : State) (b : Byte),
    (∃ s24 z45, s.selected b = .accChk24Discard s24 z45 b) ↔
      s.mode = .acc ∧ s.count = 23#6 ∧ s.buf.read 21 = some 0x00#8) ∧
  ∀ (s : State), s.mode = .acc → s.count = 23#6 → s.buf.read 21 = some 0x00#8 →
    (∀ (s24 z45 : Bool) (b : Byte),
      ∃ t, exec (.accChk24Discard s24 z45 b) s = .next t ∧ Cleared t ∧ Drives t 2#3 0#2 ∧ t.busy = false ∧
        SameTelemetry s t ∧ t.fault = s.fault ∧ SameOutside s t) ∧
    (∀ (h : BitVec 2) (is : List Input) (b : Byte) (rest : List Byte), s.inputs = .edge h :: is → h.getLsbD 1 = false →
      s.busy = true → s.fault = false → s.src = b :: rest →
      ∃ t, step s = .next t ∧ Cleared t ∧ Drives t 2#3 0#2 ∧ t.busy = false ∧ t.src = rest)

/-- R105: with both markers in place the frame held in the buffer, ended by b, is decoded and committed, and the Synchronizer is cleared;
the invocation goes on. -/
def Obligations.DoneOkCommitsFrame : Prop :=
  (∀ (s : State) (b : Byte),
    (∃ z21, s.selected b = .accDoneOk z21 b) ↔
      s.mode = .acc ∧ s.count = 47#6 ∧ s.buf.read 24 = some 0x76#8 ∧ s.buf.read 45 = some 0x00#8) ∧
  ∀ (s : State) (z21 : Bool) (f : Frame), s.mode = .acc → s.count = 47#6 →
    (∀ k : Fin 47, s.buf.read k.val = some f[k.val]) → f[24] = 0x76#8 → f[45] = 0x00#8 →
    ∃ t, exec (.accDoneOk z21 f[47]) s = .next t ∧ t.tlm = some (telemetryOf f) ∧ t.tlmValid = true ∧ Cleared t ∧
      Drives t 1#3 0#2 ∧ t.busy = s.busy ∧ t.fault = s.fault ∧ SameOutside s t

/-- R106, R80: a failing marker discards the 48 bytes, and the event says which marker failed; the invocation goes on. -/
def Obligations.DoneBadDiscardsFrame : Prop :=
  (∀ (s : State) (b : Byte),
    (∃ z21 s24 z45, s.selected b = .accDoneBad z21 s24 z45 b) ↔
      s.mode = .acc ∧ s.count = 47#6 ∧ ¬ (s.buf.read 24 = some 0x76#8 ∧ s.buf.read 45 = some 0x00#8)) ∧
  ∀ (s : State) (z21 s24 z45 : Bool) (b a e : Byte), s.mode = .acc → s.count = 47#6 →
    s.buf.read 24 = some a → s.buf.read 45 = some e → a ≠ 0x76#8 ∨ e ≠ 0x00#8 →
    ∃ t, exec (.accDoneBad z21 s24 z45 b) s = .next t ∧ Cleared t ∧
      t.evtStrobe = true ∧ t.evtCode = 3#3 ∧ (t.evtInfo.getLsbD 0 = true ↔ e ≠ 0x00#8) ∧ (t.evtInfo.getLsbD 1 = true ↔ a ≠ 0x76#8) ∧
      SameTelemetry s t ∧ t.busy = s.busy ∧ t.fault = s.fault ∧ SameOutside s t

/-- R107, with the entry of the block's one exception (R186): fault, the event, busy falls, and nothing else. The last clause is the byte step
in the machine, at every edge without RESET: the byte is consumed and lost. -/
def Obligations.IllegalStateTakesFault : Prop :=
  (∀ (s : State) (b : Byte),
    (∃ z21 s24 z45, s.selected b = .illegalState s.mode.bit s.count z21 s24 z45 b) ↔
      (s.mode = .seek ∧ s.count ≠ 0#6) ∨ (s.mode = .acc ∧ (s.count = 0#6 ∨ 48 ≤ s.count.toNat))) ∧
  ∀ (s : State) (m : Bool) (c : Count) (z21 s24 z45 : Bool) (b : Byte),
    (s.mode = .seek ∧ s.count ≠ 0#6) ∨ (s.mode = .acc ∧ (s.count = 0#6 ∨ 48 ≤ s.count.toNat)) →
    (∃ t, exec (.illegalState m c z21 s24 z45 b) s = .next t ∧ t.fault = true ∧ t.busy = false ∧ Drives t 5#3 0#2 ∧
      SameSync s t ∧ SameTelemetry s t ∧ SameOutside s t) ∧
    (∀ (h : BitVec 2) (is : List Input) (rest : List Byte), s.inputs = .edge h :: is → h.getLsbD 1 = false →
      s.busy = true → s.fault = false → s.src = b :: rest →
      ∃ t, step s = .next t ∧ t.fault = true ∧ t.busy = false ∧ t.src = rest ∧ Drives t 5#3 0#2 ∧ SameSync s t ∧ SameTelemetry s t)

/-! ### The host operations -/

/-- R109 and the POLL edge of R217 (the model's POLL is that edge, log entry 1): an invocation starts, and no byte is consumed yet. -/
def Obligations.PollStartsInvocation : Prop :=
  ∀ s : State, s.busy = false → s.fault = false →
    ∃ t, exec .poll s = .next t ∧ t.busy = true ∧ SameSync s t ∧ SameTelemetry s t ∧ SameEvent s t ∧ t.fault = s.fault ∧
      SameOutside s t

/-- R110: "A POLL event that arrives while `busy = 1` or `fault = 1` has no effect". An edge with POLL and the same edge without it lead to
the same state. -/
def Obligations.PollIgnoredWhileBusyOrFault : Prop :=
  ∀ (s : State) (is : List Input), s.busy = true ∨ s.fault = true →
    exec .poll s = .next s ∧
    step (s.setInputs (.edge 0b01#2 :: is)) = step (s.setInputs (.edge 0b00#2 :: is)) ∧
    ∃ t, step (s.setInputs (.edge 0b01#2 :: is)) = .next t

/-- R117, R34: RESET sets every piece of block state to its reset value, which is that of State.reset, and leaves the byte source as it is.
The schedule and the sink's side (log entries 2, 4, 5) are not the block's and stay. -/
def Obligations.ResetSetsEveryRegister : Prop :=
  ∀ (s : State) (withPoll : Bool),
    ∃ t, exec (.reset withPoll) s = .next t ∧ Cleared t ∧ t.buf = [] ∧ t.busy = false ∧ t.tlmValid = false ∧ t.tlm = none ∧
      t.fault = false ∧ Drives t 0#3 0#2 ∧ SameOutside s t ∧
      t = ((State.reset.setSrc s.src).setInputs s.inputs).gotRead s.rdData s.freeDraws

/-- R214: "RESET during an invocation ends the invocation at the edge where `rst = 1`; the byte on `src_data` at that edge is not consumed; a
partial candidate and the Telemetry record are lost". -/
def Obligations.ResetDuringInvocation : Prop :=
  ∀ (s : State) (h : BitVec 2) (is : List Input), s.inputs = .edge h :: is → h.getLsbD 1 = true → s.busy = true →
    ∃ t, step s = .next t ∧ t.busy = false ∧ t.src = s.src ∧ Cleared t ∧ t.tlm = none ∧ t.tlmValid = false ∧ Drives t 0#3 0#2

/-- R118 for a record that holds values, R30: READ Tn gives zext_16(Tn) and changes nothing of the block; the indices 14 and 15 are refused. -/
def Obligations.ReadGivesField : Prop :=
  ∀ (s : State) (idx : BitVec 4),
    (∀ r : Telemetry, s.tlmValid = true → s.tlm = some r → idx.toNat ≤ 13 →
      ∃ t, exec (.read idx) s = .next t ∧
        [ r.setTemp.toNat, r.desiredTemp.toNat, r.runStateCode.toNat, r.onOff.toNat, r.supplyVoltageRaw.toNat, r.fanSpeed.toNat,
          r.fanVoltageRaw.toNat, r.heatExchangerTemp.toNat, r.glowPlugVoltageRaw.toNat, r.glowPlugCurrentRaw.toNat,
          r.pumpFreqRaw.toNat, r.errorCode.toNat, r.errorSel.toNat, r.runStateSel.toNat ][idx.toNat]? = some t.rdData.toNat ∧
        SameSync s t ∧ SameTelemetry s t ∧ SameEvent s t ∧ t.busy = s.busy ∧ t.fault = s.fault ∧ t.src = s.src ∧ t.inputs = s.inputs) ∧
    (14 ≤ idx.toNat → exec (.read idx) s = .refused (.noTelemetryField idx))

/-- R118 with tlm_valid = 0: the READ completes, its value is free (`Config.freeRdData` has no body; log entry 4), and nothing of the block
changes. True whatever the free value is. -/
def Obligations.ReadWithoutRecordIsFree : Prop :=
  ∀ (s : State) (idx : BitVec 4), s.tlmValid = false → idx.toNat ≤ 13 →
    ∃ t, exec (.read idx) s = .next t ∧ t.rdData = Config.freeRdData s.freeDraws ∧ t.freeDraws = s.freeDraws + 1 ∧
      SameSync s t ∧ SameTelemetry s t ∧ SameEvent s t ∧ t.busy = s.busy ∧ t.fault = s.fault ∧ t.src = s.src ∧ t.inputs = s.inputs

/-! ### The Decoder -/

/-- R142 to R153: the raw integers of the twelve fields, the bytes combined high byte first, and the exact physical values of the scaled ones. -/
def Obligations.DecodedFieldValues : Prop :=
  ∀ f : Frame, RawFieldsOf f (telemetryOf f) ∧
    (telemetryOf f).physical 0 = some (f[3].toNat : Rat) ∧
    (telemetryOf f).physical 1 = some (f[4].toNat : Rat) ∧
    (telemetryOf f).physical 4 = some ((256 * f[28].toNat + f[29].toNat : Rat) / 10) ∧
    (telemetryOf f).physical 5 = some (256 * f[30].toNat + f[31].toNat : Rat) ∧
    (telemetryOf f).physical 6 = some ((256 * f[32].toNat + f[33].toNat : Rat) / 10) ∧
    (telemetryOf f).physical 7 = some (256 * f[34].toNat + f[35].toNat : Rat) ∧
    (telemetryOf f).physical 8 = some ((256 * f[36].toNat + f[37].toNat : Rat) / 10) ∧
    (telemetryOf f).physical 9 = some ((256 * f[38].toNat + f[39].toNat : Rat) / 100) ∧
    (telemetryOf f).physical 10 = some ((f[40].toNat : Rat) / 10)

/-- R155, R156, R160, R161: the selectors of a frame's codes, and the texts they index. A code outside the known set has the fallback text; the
texts the source does not give are OPEN parameters (`Config.openRunStateText`, `Config.openErrorText`: no body, log entry 12), and nothing is
said of them but which code selects which. -/
def Obligations.SelectorsAndTexts : Prop :=
  ∀ f : Frame,
    (telemetryOf f).runStateSel.toNat = (if f[26].toNat ≤ 8 then f[26].toNat else 15) ∧
    (telemetryOf f).errorSel.toNat = (if f[41].toNat ≤ 10 then f[41].toNat else 15) ∧
    (f[26] = 5#8 → (telemetryOf f).runStateDescription = some "Running") ∧
    (8 < f[26].toNat → (telemetryOf f).runStateDescription = some "Unknown Run State") ∧
    (f[26].toNat ≤ 8 → f[26] ≠ 5#8 → (telemetryOf f).runStateDescription = some (Config.openRunStateText f[26].toNat)) ∧
    (f[41] = 4#8 → (telemetryOf f).errorDescription = some "Ignition plug failure") ∧
    (10 < f[41].toNat → (telemetryOf f).errorDescription = some "Unknown Error Code") ∧
    (f[41].toNat ≤ 10 → f[41] ≠ 4#8 → (telemetryOf f).errorDescription = some (Config.openErrorText f[41].toNat))

/-- R158: DECODE of a frame that has not exactly 48 bytes writes no state but the event SHORT_FRAME; of 48 bytes it commits their record. -/
def Obligations.ShortFrameWritesNothing : Prop :=
  ∀ (s : State) (bytes : List Byte),
    (bytes.length ≠ 48 → s.decodeFrame bytes = s.emit .shortFrame 0#2 ∧ Drives (s.decodeFrame bytes) 4#3 0#2) ∧
    (bytes.length = 48 → ∃ f : Frame, f.toList = bytes ∧ s.decodeFrame bytes = s.commit (telemetryOf f) ∧
      (s.commit (telemetryOf f)).tlm = some (telemetryOf f) ∧ (s.commit (telemetryOf f)).tlmValid = true ∧
      SameSync s (s.commit (telemetryOf f)) ∧ SameEvent s (s.commit (telemetryOf f)) ∧ SameOutside s (s.commit (telemetryOf f)))

/-! ### Invariants and whole-machine rules -/

/-- The state after RESET meets the invariant (R34). -/
def Obligations.ResetMeetsInvariant : Prop := Inv State.reset

/-- R22, R23, R27, R79 to R82, R100, R104: from every state that meets the invariant, a step leads to one that does. -/
def Obligations.StepKeepsInvariant : Prop :=
  ∀ s t : State, Inv s → step s = .next t → Inv t

/-- R107, R186: from a state that meets the invariant no step raises IllegalState. -/
def Obligations.FaultUnreachable : Prop :=
  ∀ s t : State, Inv s → s.fault = false → step s = .next t → t.fault = false ∧ t.evtCode ≠ 5#3

/-- R11, R187: whatever bytes the source holds, the machine goes on: every step whose input is not a READ of an index that names no field
answers a next state. -/
def Obligations.EveryStepGoesOn : Prop :=
  ∀ s : State, (∀ idx is, s.inputs = .read idx :: is → idx.toNat ≤ 13) → ∃ t, step s = .next t

/-- R26, R28, R29: a step leaves the Telemetry record and tlm_valid unchanged, or is RESET, or is the byte step that completes a frame with
both markers, which commits the record of that whole frame. -/
def Obligations.TelemetryWrittenOnlyByCommitOrReset : Prop :=
  ∀ s t : State, step s = .next t →
    SameTelemetry s t ∨
    (t.tlm = none ∧ t.tlmValid = false ∧ ∃ h is, s.inputs = .edge h :: is ∧ h.getLsbD 1 = true) ∨
    (t.tlmValid = true ∧ t.evtCode = 1#3 ∧ s.mode = .acc ∧ s.count = 47#6 ∧ s.busy = true ∧
      ∃ (f : Frame) (rest : List Byte), s.src = f[47] :: rest ∧ (∀ k : Fin 47, s.buf.read k.val = some f[k.val]) ∧
        f[24] = 0x76#8 ∧ f[45] = 0x00#8 ∧ t.tlm = some (telemetryOf f))

/-- R27: tlm_valid is set by a DECODE commit, never cleared by anything but RESET, and while it is 0 every field holds no value. -/
def Obligations.TlmValidLife : Prop :=
  State.reset.tlmValid = false ∧
  ∀ s t : State, TelemetrySound s → step s = .next t →
    (t.tlmValid = true → s.tlmValid = false → t.evtCode = 1#3 ∧ t.tlm.isSome = true) ∧
    (∀ h is, s.inputs = [] ∨ s.inputs = .edge h :: is → t.evtCode = 1#3 → t.tlmValid = true) ∧
    (t.tlmValid = false → s.tlmValid = true → ∃ h is, s.inputs = .edge h :: is ∧ h.getLsbD 1 = true) ∧
    (t.tlmValid = false → t.tlm = none)

/-- R32: the fault is 0 after RESET, set only with the event ILLEGAL_STATE, cleared only by RESET, and while it is 1 no byte of the source is
read and no byte step is performed. -/
def Obligations.FaultIsSticky : Prop :=
  State.reset.fault = false ∧
  ∀ s t : State, step s = .next t →
    (t.fault = true → s.fault = false → t.evtCode = 5#3) ∧
    (∀ h is, s.inputs = [] ∨ s.inputs = .edge h :: is → t.evtCode = 5#3 → t.fault = true) ∧
    (t.fault = false → s.fault = true → ∃ h is, s.inputs = .edge h :: is ∧ h.getLsbD 1 = true) ∧
    (s.fault = true → t.src = s.src ∨ ∃ b is, s.inputs = .push b :: is ∧ t.src = s.src ++ [b]) ∧
    (s.fault = true → t.fault = true → SameSync s t ∧ SameTelemetry s t)

/-- R55 to R57: a step leaves the byte source as it is, or takes its oldest byte, which only an invocation without fault does, or is the
host's PUSH of one byte at its end. So each byte is read once and in stream order. -/
def Obligations.SourceReadInOrder : Prop :=
  ∀ s t : State, step s = .next t →
    t.src = s.src ∨
    (s.busy = true ∧ s.fault = false ∧ ∃ b, s.src = b :: t.src) ∨
    (∃ b is, s.inputs = .push b :: is ∧ t.src = s.src ++ [b])

/-- R78, R217, R214: the port src_read is 1 before exactly the edges that consume a byte. -/
def Obligations.SrcReadPortMarksConsumption : Prop :=
  ∀ (s t : State) (h : BitVec 2) (is : List Input), s.inputs = .edge h :: is → step s = .next t →
    (s.srcReadPort h = true ↔ ∃ b, s.src = b :: t.src)

/-- R113, R191: with no host event and no invocation running, the clock changes nothing, however long it runs: a partial candidate waits for
ever. Only the one-cycle strobe ends (R31). An empty schedule stands for edges with h = 00 (log entry 2). -/
def Obligations.IdleClockKeepsEverything : Prop :=
  ∀ (s : State) (k : Nat), s.inputs = [] → s.busy = false → After (k + 1) s s.emitNone

/-! ### The byte step and the invocation as whole functions -/

/-- R116: "BYTESTEP(b), the whole byte step as one function, equal to rules R100 to R107", the abort ending the invocation. In every state: every
mode, count and buffer is included, those with an empty entry among them; there both sides raise IllegalState where R24 says so, which at
ACC_CHK24_PASS is the model's reading (log entry 6, DEDUCED). -/
def Obligations.ByteStepEqualsRows : Prop :=
  ∀ (s : State) (b : Byte),
    exec (s.selected b) s = .next (if (byteStep b s).2 then (byteStep b s).1.setBusy false else (byteStep b s).1)

/-- R109: the edge with POLL and the edges after it compute the loop of R109, with the same events in the same order. That POLL is its edge is
the model's choice (log entry 1), and so is that the edges after the scheduled one are h = 00 edges with nothing pushed (log entry 2). -/
def Obligations.PollRunsWholeInvocation : Prop :=
  ∀ s : State, s.busy = false → s.fault = false → s.inputs = [.edge 0b01#2] →
    ∃ k, k ≤ s.src.length + 2 ∧ After k s (s.emitNone.invocation.1.setInputs []) ∧ eventsAfter k s = s.emitNone.invocation.2

/-- R109: an invocation ends: with nothing pushed meanwhile, busy has fallen after at most one edge a byte and one more. The empty schedule
stands for edges with h = 00 (log entry 2). States with busy = 1 and fault = 1, which no run reaches, are included; there the invocation ends at
its next edge by the model's reading of R32 and R109 (log entry 7). -/
def Obligations.InvocationEnds : Prop :=
  ∀ s : State, s.busy = true → s.inputs = [] → ∃ k t, k ≤ s.src.length + 1 ∧ After k s t ∧ t.busy = false

/-- 95_test_vectors.md S10 (R101): bytes that arrive in SeekingStart and never equal 0x76 are dropped without a trace. -/
def Obligations.NoiseLeavesNoTrace : Prop :=
  ∀ (s : State) (noise : List Byte), Inv s → Idle s → (∀ b ∈ noise, b ≠ 0x76#8) → s.src = noise →
    s.invocation.2 = [] ∧ s.invocation.1 = s.emitNone.setSrc []

/-- 95_test_vectors.md S1 (R2, R115, R112): after any prefix without 0x76 a well-formed frame is decoded as it would be alone, and the
invocation goes on with the bytes behind it as from a fresh start. -/
def Obligations.ResynchronizesOnFrame : Prop :=
  ∀ (s : State) (noise rest : List Byte) (f : Frame), Inv s → Idle s → (∀ b ∈ noise, b ≠ 0x76#8) → WellFormedFrame f →
    s.src = noise ++ f.toList ++ rest →
    let after := ((s.commit (telemetryOf f)).setSrc rest).invocation
    s.invocation.1 = after.1 ∧ s.invocation.2 = (1#3, 0#2) :: after.2

/-- 95_test_vectors.md S9 (R113): delivering bytes in two parts, each with its own invocation, is delivering them in one, unless the first
invocation ends by a premature discard. Repeated, it gives any number of parts. -/
def Obligations.PartialDelivery : Prop :=
  ∀ (s : State) (first second : List Byte), Inv s → s.busy = false → s.fault = false →
    let r1 := (s.setSrc first).invocation
    let r2 := (r1.1.setSrc second).invocation
    let whole := (s.setSrc (first ++ second)).invocation
    (2#3, 0#2) ∉ r1.2 → whole.1 = r2.1 ∧ whole.2 = r1.2 ++ r2.2

/-- R111: after a premature discard the bytes still available are not read by the invocation; they stay in the source, in order, and the next
POLL finds the Synchronizer in SeekingStart. -/
def Obligations.PrematureDiscardLeavesSource : Prop :=
  ∀ (s : State) (b : Byte) (rest : List Byte), Inv s → s.busy = false → s.fault = false → s.count = 23#6 →
    s.buf.read 21 = some 0x00#8 → s.src = b :: rest →
    s.invocation.2 = [(2#3, 0#2)] ∧ s.invocation.1.src = rest ∧ Cleared s.invocation.1 ∧ s.invocation.1.busy = false ∧
      SameTelemetry s s.invocation.1

/-- 95_test_vectors.md S2 (R104, R111): a candidate whose byte 21 is 0x00 is discarded at its 24th byte, whatever follows; what follows is left
for the next invocation. -/
def Obligations.PrematureFrameDiscarded : Prop :=
  ∀ (s : State) (l rest : List Byte), Inv s → Idle s → l.length = 24 → l[0]? = some 0x76#8 → l[21]? = some 0x00#8 → s.src = l ++ rest →
    s.invocation.2 = [(2#3, 0#2)] ∧ s.invocation.1.src = rest ∧ Cleared s.invocation.1 ∧ s.invocation.1.busy = false ∧
      s.invocation.1.fault = false ∧ SameTelemetry s s.invocation.1

/-- 95_test_vectors.md S3 (R106, R112, R114): a 48-byte candidate that fails a completion marker leaves no trace but its report: the
invocation goes on as if only the bytes behind it had been sent, and none of its own bytes is scanned again. -/
def Obligations.MarkerFailureLeavesNoTrace : Prop :=
  ∀ (s : State) (f : Frame) (rest : List Byte), Inv s → Idle s → f[0] = 0x76#8 → f[21] ≠ 0x00#8 → f[24] ≠ 0x76#8 ∨ f[45] ≠ 0x00#8 →
    s.src = f.toList ++ rest →
    let after := (s.setSrc rest).invocation
    s.invocation.1 = after.1 ∧ s.invocation.2 = (3#3, BitVec.ofBool (f[24] != 0x76#8) ++ BitVec.ofBool (f[45] != 0x00#8)) :: after.2

/-- R74: the bytes "not interpreted" decide nothing. Two candidates that agree on the interpreted offsets of R71 give the same events, the
same Telemetry, the same registers, and leave equally many bytes in the source. -/
def Obligations.UninterpretedBytesDecideNothing : Prop :=
  ∀ (s : State) (f g : Frame), Inv s → Idle s → f[0] = 0x76#8 →
    (∀ k : Fin 48, k.val ∈ interpretedOffsets → f[k.val] = g[k.val]) →
    let a := (s.setSrc f.toList).invocation
    let b := (s.setSrc g.toList).invocation
    a.2 = b.2 ∧ SameTelemetry a.1 b.1 ∧ SameSync a.1 b.1 ∧ SameEvent a.1 b.1 ∧ a.1.busy = b.1.busy ∧ a.1.fault = b.1.fault ∧
      a.1.src.length = b.1.src.length

/-! ### Reads of an entry that holds no value, scripts, and the end of a run -/

/-- Derived from R24, R75, R76, R103 and R186: a read of a buffer entry that holds no value is IllegalState, never a value: the selected action
takes it, whichever of the three reads meets the empty entry. That ACC_CHK24_PASS, which an empty `buf[21]` selects (z21 = 0), raises there
although R103 says "Faults: none" is the model's reading (log entry 6, DEDUCED). And where the entries hold values as R23 says, no action
performs such a read, which R24 itself marks "[derived: from 40_synchronizer.md rules R103 to R106]". -/
def Obligations.EmptyEntryReadRaises : Prop :=
  (∀ (s : State) (b : Byte), ReadsEmptyEntry s →
    ∃ t, exec (s.selected b) s = .next t ∧ t.fault = true ∧ t.busy = false ∧ Drives t 5#3 0#2 ∧ SameSync s t ∧ SameTelemetry s t ∧
      SameOutside s t) ∧
  ∀ s : State, BufferHeld s → ¬ ReadsEmptyEntry s

/-- 30_encoding.md R83: the machine carries out a host script. The inputs of a script, placed on the schedule (log entry 11), lead to the state
the script leaves, with the events its POLL lines record, in order; and a script that a READ of no field ends (R118) is refused by the machine
too. POLL lines that find a fault, or end by a premature discard, are included. -/
def Obligations.ScriptRunsOnMachine : Prop :=
  ∀ (s : State) (script : List ScriptLine), s.busy = false → s.inputs = [] →
    let inputs := scriptInputs s.src.length script
    (∀ (t : State) (records : List PollRecord), runScript script s = .next (t, records) →
      After inputs.length (s.setInputs inputs) t ∧ eventsAfter inputs.length (s.setInputs inputs) = records.flatten) ∧
    (∀ r, runScript script s = .refused r →
      Host.Core.run { State := State, Fault := Fault, Refusal := Refusal, step := step, reset := State.reset } inputs.length
        (s.setInputs inputs) = .refused r)

/-- 70_reset_and_hazards.md R218: a run that is over stays over, with the same observation and no further event, whatever READs and edges with
h = 00 still come (an empty schedule stands for such edges, log entry 2). -/
def Obligations.EndOfRunStaysOver : Prop :=
  ∀ s t : State, EndOfRun s → step s = .next t → EndOfRun t ∧ observe t = observe s ∧ stepEvents s t = []
end

