-- ==== Sys2Proof/Laws/Decode.lean ====
section
/-! SUPPORT. The laws of the decision word and of the opcode table: the fields of a word, and what the mask and match rows select. -/

namespace Sys2Proof

/-- Where each field lies in the decision word (R75). -/
theorem wordOf_getLsbD (m : Bool) (c : Count) (z21 s24 z45 : Bool) (b : Byte) (i : Nat) :
    (wordOf m c z21 s24 z45 b).getLsbD i =
      if i < 8 then b.getLsbD i else if i = 8 then z45 else if i = 9 then s24 else if i = 10 then z21
      else if i < 17 then c.getLsbD (i - 11) else if i = 17 then m else false := by
  change @BitVec.getLsbD (1 + 6 + 1 + 1 + 1 + 8) (BitVec.ofBool m ++ c ++ BitVec.ofBool z21 ++ BitVec.ofBool s24 ++ BitVec.ofBool z45 ++ b) i = _
  simp only [BitVec.getLsbD_append, BitVec.getLsbD_ofBool]
  split_ifs <;> first | rfl | omega | (simp; omega)

@[simp] theorem wordM_wordOf (m : Bool) (c : Count) (z s z' : Bool) (b : Byte) : wordM (wordOf m c z s z' b) = m := by
  simp [wordM, wordOf_getLsbD, -BitVec.getLsbD_eq_getElem]

@[simp] theorem wordB_wordOf (m : Bool) (c : Count) (z s z' : Bool) (b : Byte) : wordB (wordOf m c z s z' b) = b := by
  apply BitVec.eq_of_getLsbD_eq; intro i hi
  rw [wordB, BitVec.getLsbD_extractLsb', wordOf_getLsbD]
  simp [hi]

@[simp] theorem wordC_wordOf (m : Bool) (c : Count) (z s z' : Bool) (b : Byte) : wordC (wordOf m c z s z' b) = c := by
  apply BitVec.eq_of_getLsbD_eq; intro i hi
  rw [wordC, BitVec.getLsbD_extractLsb', wordOf_getLsbD]
  simp [hi, show ¬ (11 + i < 8) by omega, show ¬ (11 + i = 8) by omega, show ¬ (11 + i = 9) by omega,
    show ¬ (11 + i = 10) by omega, show 11 + i < 17 by omega]

@[simp] theorem wordZ21_wordOf (m : Bool) (c : Count) (z s z' : Bool) (b : Byte) : wordZ21 (wordOf m c z s z' b) = z := by
  simp [wordZ21, wordOf_getLsbD, -BitVec.getLsbD_eq_getElem]

@[simp] theorem wordS24_wordOf (m : Bool) (c : Count) (z s z' : Bool) (b : Byte) : wordS24 (wordOf m c z s z' b) = s := by
  simp [wordS24, wordOf_getLsbD, -BitVec.getLsbD_eq_getElem]

@[simp] theorem wordZ45_wordOf (m : Bool) (c : Count) (z s z' : Bool) (b : Byte) : wordZ45 (wordOf m c z s z' b) = z' := by
  simp [wordZ45, wordOf_getLsbD, -BitVec.getLsbD_eq_getElem]

/-- A decision word is made of its fields. -/
theorem wordOf_fields (w : DecisionWord) :
    wordOf (wordM w) (wordC w) (wordZ21 w) (wordS24 w) (wordZ45 w) (wordB w) = w := by
  apply BitVec.eq_of_getLsbD_eq
  intro i hi
  simp only [wordOf_getLsbD, wordM, wordC, wordZ21, wordS24, wordZ45, wordB, BitVec.getLsbD_extractLsb']
  split_ifs with h1 h2 h3 h4 h5 h6
  · simp [h1]
  · rw [h2]
  · rw [h3]
  · rw [h4]
  · simp [show i - 11 < 6 by omega, show 11 + (i - 11) = i by omega]
  · rw [h6]
  · omega

theorem wordOf_inj (m m' c c' z y s r z' y' b b') :
    wordOf m c z s z' b = wordOf m' c' y r y' b' ↔ m = m' ∧ c = c' ∧ z = y ∧ s = r ∧ z' = y' ∧ b = b' := by
  constructor
  · intro h
    refine ⟨?_, ?_, ?_, ?_, ?_, ?_⟩
    · simpa [wordM_wordOf] using congrArg wordM h
    · simpa [wordC_wordOf] using congrArg wordC h
    · simpa [wordZ21_wordOf] using congrArg wordZ21 h
    · simpa [wordS24_wordOf] using congrArg wordS24 h
    · simpa [wordZ45_wordOf] using congrArg wordZ45 h
    · simpa [wordB_wordOf] using congrArg wordB h
  · rintro ⟨rfl, rfl, rfl, rfl, rfl, rfl⟩; rfl

theorem wordOf_and (m m' c c' z y s r z' y' b b') :
    wordOf m c z s z' b &&& wordOf m' c' y r y' b' =
      wordOf (m && m') (c &&& c') (z && y) (s && r) (z' && y') (b &&& b') := by
  apply BitVec.eq_of_getLsbD_eq
  intro i hi
  rw [BitVec.getLsbD_and]
  simp only [wordOf_getLsbD]
  split_ifs <;> simp [BitVec.getLsbD_and]

/-- What the mask and match table selects, field by field. -/
theorem selectAction_wordOf (m : Bool) (c : Count) (z s z' : Bool) (b : Byte) :
    selectAction (wordOf m c z s z' b) =
      if m = false then
        if c = 0#6 then if b = Config.startMarker then .seekStart else .seekDrop else .illegalState
      else if c = 23#6 then if z = true then .accChk24Discard else .accChk24Pass
      else if c = 47#6 then if s = true ∧ z' = true then .accDoneOk else .accDoneBad
      else if 1 ≤ c.toNat ∧ c.toNat ≤ 46 then .accAppend
      else .illegalState := by
  have e1 : (0x00076#18) = wordOf false 0#6 false false false 0x76#8 := by decide
  have e2 : (0x3F8FF#18) = wordOf true 0x3f#6 false false false 0xff#8 := by decide
  have e3 : (0x3F800#18) = wordOf true 0x3f#6 false false false 0x00#8 := by decide
  have e4 : (0x00000#18) = wordOf false 0#6 false false false 0x00#8 := by decide
  have e5 : (0x2BC00#18) = wordOf true 23#6 true false false 0x00#8 := by decide
  have e6 : (0x3FC00#18) = wordOf true 0x3f#6 true false false 0x00#8 := by decide
  have e7 : (0x2B800#18) = wordOf true 23#6 false false false 0x00#8 := by decide
  have e8 : (0x37B00#18) = wordOf true 47#6 false true true 0x00#8 := by decide
  have e9 : (0x3FB00#18) = wordOf true 0x3f#6 false true true 0x00#8 := by decide
  have e10 : (0x37800#18) = wordOf true 47#6 false false false 0x00#8 := by decide
  have e11 : (0x20000#18) = wordOf true 0#6 false false false 0x00#8 := by decide
  have k1 : ∀ x : Count, x &&& 0x3f#6 = x := by decide
  have k2 : ∀ x : Byte, x &&& 0xff#8 = x := by decide
  have hc := c.isLt
  unfold selectAction byteRows
  simp only [firstRow, Row.takes, e1, e2, e3, e4, e5, e6, e7, e8, e9, e10, e11, wordOf_and, wordC_wordOf, beq_iff_eq, wordOf_inj, k1, k2,
    Bool.and_eq_true, decide_eq_true_eq]
  cases m <;> cases z <;> cases s <;> cases z' <;> simp [Config.startMarker] <;> split_ifs <;> simp_all

/-- The byte-step decoder on a word made of its fields. -/
theorem decodeByteStep_wordOf (m : Bool) (c : Count) (z s z' : Bool) (b : Byte) :
    decodeByteStep (wordOf m c z s z' b) =
      if m = false then
        if c = 0#6 then if b = Config.startMarker then .seekStart z s z' else .seekDrop z s z' b
        else .illegalState m c z s z' b
      else if c = 23#6 then if z = true then .accChk24Discard s z' b else .accChk24Pass s z' b
      else if c = 47#6 then if s = true ∧ z' = true then .accDoneOk z b else .accDoneBad z s z' b
      else if 1 ≤ c.toNat ∧ c.toNat ≤ 46 then .accAppend c z s z' b
      else .illegalState m c z s z' b := by
  rw [decodeByteStep, selectAction_wordOf]
  split_ifs <;> simp [instrOf]

/-- RESET dominates (R77). -/
theorem decodeHost_rst (h : BitVec 2) (hr : h.getLsbD 1 = true) : decodeHost h = .ok (.reset (h.getLsbD 0)) := by
  simp [decodeHost, hr]

theorem decodeHost_eq : ∀ h : BitVec 2,
    decodeHost h = if h = 0#2 then .error .noHostEvent else if h = 1#2 then .ok .poll else .ok (.reset (h.getLsbD 0)) := by
  intro h
  have hh : h = 0#2 ∨ h = 1#2 ∨ h = 2#2 ∨ h = 3#2 := by revert h; decide
  rcases hh with rfl | rfl | rfl | rfl <;> rfl

end Sys2Proof
end

