-- ==== Sys2Proof/Laws/Memory.lean ====
section
/-! SUPPORT. The laws of the frame buffer: read after write, the canonical form, and reading a range. -/

namespace Sys2Proof.Machine

@[simp] theorem Memory.read_nil (a : Nat) : Memory.read [] a = none := rfl

/-- A read after a write to the same index gives the byte written. -/
@[simp] theorem Memory.read_write_same (m : Memory) (a : Nat) (v : Byte) : (m.write a v).read a = some v := by
  induction m with
  | nil => simp [Memory.write, Memory.read]
  | cons c m ih =>
    obtain ⟨k, x⟩ := c
    by_cases h1 : a < k
    · simp [Memory.write, Memory.read, h1]
    · by_cases h2 : a = k
      · simp [Memory.write, Memory.read, h2]
      · simp [Memory.write, Memory.read, h1, h2, ih, Ne.symm h2]

/-- A write leaves every other index alone. -/
theorem Memory.read_write_other (m : Memory) (a i : Nat) (v : Byte) (h : i ≠ a) : (m.write a v).read i = m.read i := by
  induction m with
  | nil => simp [Memory.write, Memory.read, Ne.symm h]
  | cons c m ih =>
    obtain ⟨k, x⟩ := c
    by_cases h1 : a < k
    · simp [Memory.write, Memory.read, h1, Ne.symm h]
    · by_cases h2 : a = k
      · subst h2; simp [Memory.write, Memory.read, Ne.symm h]
      · by_cases h3 : k = i
        · subst h3; simp [Memory.write, Memory.read, h1, h2]
        · simp [Memory.write, Memory.read, h1, h2, h3, ih]

theorem Memory.read_write (m : Memory) (a i : Nat) (v : Byte) :
    (m.write a v).read i = if i = a then some v else m.read i := by
  by_cases h : i = a
  · simp [h]
  · simp [h, Memory.read_write_other]

/-- A write of an existing index keeps the canonical form. -/
theorem Memory.wfFrom_write (m : Memory) (low a : Nat) (v : Byte) (hm : Memory.wfFrom low m = true) (hl : low ≤ a) (ha : a < 48) :
    Memory.wfFrom low (m.write a v) = true := by
  induction m generalizing low with
  | nil => simp [Memory.write, Memory.wfFrom, Config.frameLen, hl, ha]
  | cons c m ih =>
    obtain ⟨k, x⟩ := c
    simp only [Memory.wfFrom, Bool.and_eq_true, decide_eq_true_eq] at hm
    by_cases h1 : a < k
    · simp [Memory.write, Memory.wfFrom, h1, hl, ha, hm, Nat.succ_le_of_lt h1]
    · by_cases h2 : a = k
      · subst h2; simp [Memory.write, Memory.wfFrom, hm]
      · simp [Memory.write, Memory.wfFrom, h1, h2, hm, ih (k + 1) hm.2 (by omega)]

/-- Every write the machine makes keeps `Memory.wf`. -/
theorem Memory.wf_write (m : Memory) (a : Nat) (v : Byte) (hm : m.wf = true) (ha : a < 48) : (m.write a v).wf = true :=
  Memory.wfFrom_write m 0 a v hm (Nat.zero_le a) ha

theorem Memory.wf_nil : Memory.wf [] = true := rfl

/-- A canonical buffer holds nothing below its lower bound and nothing at 48 or above. -/
theorem Memory.read_of_wfFrom (m : Memory) (low a : Nat) (hm : Memory.wfFrom low m = true) (v : Byte) (h : m.read a = some v) :
    low ≤ a ∧ a < 48 := by
  induction m generalizing low with
  | nil => simp at h
  | cons c m ih =>
    obtain ⟨k, x⟩ := c
    simp only [Memory.wfFrom, Bool.and_eq_true, decide_eq_true_eq] at hm
    by_cases hk : k = a
    · subst hk; exact hm.1
    · simp only [Memory.read, hk, if_false] at h
      have := ih (k + 1) hm.2 h
      omega

/-- No entry of a canonical buffer lies above index 47. -/
theorem Memory.read_outside (m : Memory) (hm : m.wf = true) (a : Nat) (ha : 48 ≤ a) : m.read a = none := by
  cases h : m.read a with
  | none => rfl
  | some v => exact absurd (Memory.read_of_wfFrom m 0 a hm v h).2 (by omega)

/-- An append answers exactly when the index exists (R50). -/
theorem State.append_eq (s : State) (n : Nat) (b : Byte) (h : n < 48) : s.append n b = .ok (s.appended n b) := by
  simp [State.append, Config.frameLen, h]

theorem State.append_outside (s : State) (n : Nat) (b : Byte) (h : 48 ≤ n) : s.append n b = .error (.noSuchEntry n) := by
  simp [State.append, Config.frameLen, Nat.not_lt.mpr h]

/-- A range that holds values reads as as many bytes, each the byte of its entry. -/
theorem Memory.readRange_spec (m : Memory) (n start : Nat) (h : ∀ i, start ≤ i → i < start + n → (m.read i).isSome) :
    ∃ l, m.readRange start n = some l ∧ l.length = n ∧ ∀ i (hi : i < l.length), m.read (start + i) = some l[i] := by
  induction n generalizing start with
  | zero => exact ⟨[], rfl, rfl, by simp⟩
  | succ n ih =>
    obtain ⟨v, hv⟩ := Option.isSome_iff_exists.mp (h start (Nat.le_refl _) (by omega))
    obtain ⟨l, h1, h2, h3⟩ := ih (start + 1) (fun i a b => h i (by omega) (by omega))
    refine ⟨v :: l, by simp [Memory.readRange, hv, h1], by simp [h2], ?_⟩
    intro i hi
    cases i with
    | zero => simpa using hv
    | succ i =>
      have := h3 i (by simpa using hi)
      simpa [Nat.add_assoc, Nat.add_comm 1 i] using this

theorem Memory.readRange_length (m : Memory) (n start : Nat) (l : List Byte) (h : m.readRange start n = some l) : l.length = n := by
  induction n generalizing start l with
  | zero => simp [Memory.readRange] at h; simp [← h]
  | succ n ih =>
    simp only [Memory.readRange] at h
    split at h
    · next v vs _ h2 => cases h; simp [ih _ _ h2]
    · cases h

end Sys2Proof.Machine
end

