-- ==== Sys2Proof/Laws/State.lean ====
section
/-! SUPPORT. What each shared update of State does to each field: one lemma per field per update, true by rfl. -/

namespace Sys2Proof.Machine

variable (s : State)

/-! ### emit -/

@[simp] theorem State.emit_mode (e : Event) (i : BitVec 2) : (s.emit e i).mode = s.mode := rfl
@[simp] theorem State.emit_count (e : Event) (i : BitVec 2) : (s.emit e i).count = s.count := rfl
@[simp] theorem State.emit_buf (e : Event) (i : BitVec 2) : (s.emit e i).buf = s.buf := rfl
@[simp] theorem State.emit_busy (e : Event) (i : BitVec 2) : (s.emit e i).busy = s.busy := rfl
@[simp] theorem State.emit_tlmValid (e : Event) (i : BitVec 2) : (s.emit e i).tlmValid = s.tlmValid := rfl
@[simp] theorem State.emit_tlm (e : Event) (i : BitVec 2) : (s.emit e i).tlm = s.tlm := rfl
@[simp] theorem State.emit_fault (e : Event) (i : BitVec 2) : (s.emit e i).fault = s.fault := rfl
@[simp] theorem State.emit_evtStrobe (e : Event) (i : BitVec 2) : (s.emit e i).evtStrobe = (e.code != 0#3) := rfl
@[simp] theorem State.emit_evtCode (e : Event) (i : BitVec 2) : (s.emit e i).evtCode = e.code := rfl
@[simp] theorem State.emit_evtInfo (e : Event) (i : BitVec 2) : (s.emit e i).evtInfo = i := rfl
@[simp] theorem State.emit_src (e : Event) (i : BitVec 2) : (s.emit e i).src = s.src := rfl
@[simp] theorem State.emit_inputs (e : Event) (i : BitVec 2) : (s.emit e i).inputs = s.inputs := rfl
@[simp] theorem State.emit_rdData (e : Event) (i : BitVec 2) : (s.emit e i).rdData = s.rdData := rfl
@[simp] theorem State.emit_freeDraws (e : Event) (i : BitVec 2) : (s.emit e i).freeDraws = s.freeDraws := rfl

/-! ### emitNone -/

@[simp] theorem State.emitNone_mode : (s.emitNone).mode = s.mode := rfl
@[simp] theorem State.emitNone_count : (s.emitNone).count = s.count := rfl
@[simp] theorem State.emitNone_buf : (s.emitNone).buf = s.buf := rfl
@[simp] theorem State.emitNone_busy : (s.emitNone).busy = s.busy := rfl
@[simp] theorem State.emitNone_tlmValid : (s.emitNone).tlmValid = s.tlmValid := rfl
@[simp] theorem State.emitNone_tlm : (s.emitNone).tlm = s.tlm := rfl
@[simp] theorem State.emitNone_fault : (s.emitNone).fault = s.fault := rfl
@[simp] theorem State.emitNone_evtStrobe : (s.emitNone).evtStrobe = false := rfl
@[simp] theorem State.emitNone_evtCode : (s.emitNone).evtCode = 0#3 := rfl
@[simp] theorem State.emitNone_evtInfo : (s.emitNone).evtInfo = 0#2 := rfl
@[simp] theorem State.emitNone_src : (s.emitNone).src = s.src := rfl
@[simp] theorem State.emitNone_inputs : (s.emitNone).inputs = s.inputs := rfl
@[simp] theorem State.emitNone_rdData : (s.emitNone).rdData = s.rdData := rfl
@[simp] theorem State.emitNone_freeDraws : (s.emitNone).freeDraws = s.freeDraws := rfl

/-! ### clear -/

@[simp] theorem State.clear_mode : (s.clear).mode = .seek := rfl
@[simp] theorem State.clear_count : (s.clear).count = 0#6 := rfl
@[simp] theorem State.clear_buf : (s.clear).buf = [] := rfl
@[simp] theorem State.clear_busy : (s.clear).busy = s.busy := rfl
@[simp] theorem State.clear_tlmValid : (s.clear).tlmValid = s.tlmValid := rfl
@[simp] theorem State.clear_tlm : (s.clear).tlm = s.tlm := rfl
@[simp] theorem State.clear_fault : (s.clear).fault = s.fault := rfl
@[simp] theorem State.clear_evtStrobe : (s.clear).evtStrobe = s.evtStrobe := rfl
@[simp] theorem State.clear_evtCode : (s.clear).evtCode = s.evtCode := rfl
@[simp] theorem State.clear_evtInfo : (s.clear).evtInfo = s.evtInfo := rfl
@[simp] theorem State.clear_src : (s.clear).src = s.src := rfl
@[simp] theorem State.clear_inputs : (s.clear).inputs = s.inputs := rfl
@[simp] theorem State.clear_rdData : (s.clear).rdData = s.rdData := rfl
@[simp] theorem State.clear_freeDraws : (s.clear).freeDraws = s.freeDraws := rfl

/-! ### raiseIllegalState -/

@[simp] theorem State.raiseIllegalState_mode : (s.raiseIllegalState).mode = s.mode := rfl
@[simp] theorem State.raiseIllegalState_count : (s.raiseIllegalState).count = s.count := rfl
@[simp] theorem State.raiseIllegalState_buf : (s.raiseIllegalState).buf = s.buf := rfl
@[simp] theorem State.raiseIllegalState_busy : (s.raiseIllegalState).busy = false := rfl
@[simp] theorem State.raiseIllegalState_tlmValid : (s.raiseIllegalState).tlmValid = s.tlmValid := rfl
@[simp] theorem State.raiseIllegalState_tlm : (s.raiseIllegalState).tlm = s.tlm := rfl
@[simp] theorem State.raiseIllegalState_fault : (s.raiseIllegalState).fault = true := rfl
@[simp] theorem State.raiseIllegalState_evtStrobe : (s.raiseIllegalState).evtStrobe = true := rfl
@[simp] theorem State.raiseIllegalState_evtCode : (s.raiseIllegalState).evtCode = 5#3 := rfl
@[simp] theorem State.raiseIllegalState_evtInfo : (s.raiseIllegalState).evtInfo = 0#2 := rfl
@[simp] theorem State.raiseIllegalState_src : (s.raiseIllegalState).src = s.src := rfl
@[simp] theorem State.raiseIllegalState_inputs : (s.raiseIllegalState).inputs = s.inputs := rfl
@[simp] theorem State.raiseIllegalState_rdData : (s.raiseIllegalState).rdData = s.rdData := rfl
@[simp] theorem State.raiseIllegalState_freeDraws : (s.raiseIllegalState).freeDraws = s.freeDraws := rfl

/-! ### endInvocation -/

@[simp] theorem State.endInvocation_mode : (s.endInvocation).mode = s.mode := rfl
@[simp] theorem State.endInvocation_count : (s.endInvocation).count = s.count := rfl
@[simp] theorem State.endInvocation_buf : (s.endInvocation).buf = s.buf := rfl
@[simp] theorem State.endInvocation_busy : (s.endInvocation).busy = false := rfl
@[simp] theorem State.endInvocation_tlmValid : (s.endInvocation).tlmValid = s.tlmValid := rfl
@[simp] theorem State.endInvocation_tlm : (s.endInvocation).tlm = s.tlm := rfl
@[simp] theorem State.endInvocation_fault : (s.endInvocation).fault = s.fault := rfl
@[simp] theorem State.endInvocation_evtStrobe : (s.endInvocation).evtStrobe = s.evtStrobe := rfl
@[simp] theorem State.endInvocation_evtCode : (s.endInvocation).evtCode = s.evtCode := rfl
@[simp] theorem State.endInvocation_evtInfo : (s.endInvocation).evtInfo = s.evtInfo := rfl
@[simp] theorem State.endInvocation_src : (s.endInvocation).src = s.src := rfl
@[simp] theorem State.endInvocation_inputs : (s.endInvocation).inputs = s.inputs := rfl
@[simp] theorem State.endInvocation_rdData : (s.endInvocation).rdData = s.rdData := rfl
@[simp] theorem State.endInvocation_freeDraws : (s.endInvocation).freeDraws = s.freeDraws := rfl

/-! ### commit -/

@[simp] theorem State.commit_mode (r : Telemetry) : (s.commit r).mode = s.mode := rfl
@[simp] theorem State.commit_count (r : Telemetry) : (s.commit r).count = s.count := rfl
@[simp] theorem State.commit_buf (r : Telemetry) : (s.commit r).buf = s.buf := rfl
@[simp] theorem State.commit_busy (r : Telemetry) : (s.commit r).busy = s.busy := rfl
@[simp] theorem State.commit_tlmValid (r : Telemetry) : (s.commit r).tlmValid = true := rfl
@[simp] theorem State.commit_tlm (r : Telemetry) : (s.commit r).tlm = some r := rfl
@[simp] theorem State.commit_fault (r : Telemetry) : (s.commit r).fault = s.fault := rfl
@[simp] theorem State.commit_evtStrobe (r : Telemetry) : (s.commit r).evtStrobe = s.evtStrobe := rfl
@[simp] theorem State.commit_evtCode (r : Telemetry) : (s.commit r).evtCode = s.evtCode := rfl
@[simp] theorem State.commit_evtInfo (r : Telemetry) : (s.commit r).evtInfo = s.evtInfo := rfl
@[simp] theorem State.commit_src (r : Telemetry) : (s.commit r).src = s.src := rfl
@[simp] theorem State.commit_inputs (r : Telemetry) : (s.commit r).inputs = s.inputs := rfl
@[simp] theorem State.commit_rdData (r : Telemetry) : (s.commit r).rdData = s.rdData := rfl
@[simp] theorem State.commit_freeDraws (r : Telemetry) : (s.commit r).freeDraws = s.freeDraws := rfl

/-! ### pushByte -/

@[simp] theorem State.pushByte_mode (b : Byte) : (s.pushByte b).mode = s.mode := rfl
@[simp] theorem State.pushByte_count (b : Byte) : (s.pushByte b).count = s.count := rfl
@[simp] theorem State.pushByte_buf (b : Byte) : (s.pushByte b).buf = s.buf := rfl
@[simp] theorem State.pushByte_busy (b : Byte) : (s.pushByte b).busy = s.busy := rfl
@[simp] theorem State.pushByte_tlmValid (b : Byte) : (s.pushByte b).tlmValid = s.tlmValid := rfl
@[simp] theorem State.pushByte_tlm (b : Byte) : (s.pushByte b).tlm = s.tlm := rfl
@[simp] theorem State.pushByte_fault (b : Byte) : (s.pushByte b).fault = s.fault := rfl
@[simp] theorem State.pushByte_evtStrobe (b : Byte) : (s.pushByte b).evtStrobe = s.evtStrobe := rfl
@[simp] theorem State.pushByte_evtCode (b : Byte) : (s.pushByte b).evtCode = s.evtCode := rfl
@[simp] theorem State.pushByte_evtInfo (b : Byte) : (s.pushByte b).evtInfo = s.evtInfo := rfl
@[simp] theorem State.pushByte_src (b : Byte) : (s.pushByte b).src = s.src ++ [b] := rfl
@[simp] theorem State.pushByte_inputs (b : Byte) : (s.pushByte b).inputs = s.inputs := rfl
@[simp] theorem State.pushByte_rdData (b : Byte) : (s.pushByte b).rdData = s.rdData := rfl
@[simp] theorem State.pushByte_freeDraws (b : Byte) : (s.pushByte b).freeDraws = s.freeDraws := rfl

/-! ### appended -/

@[simp] theorem State.appended_mode (n : Nat) (b : Byte) : (s.appended n b).mode = s.mode := rfl
@[simp] theorem State.appended_count (n : Nat) (b : Byte) : (s.appended n b).count = BitVec.ofNat 6 (n + 1) := rfl
@[simp] theorem State.appended_buf (n : Nat) (b : Byte) : (s.appended n b).buf = s.buf.write n b := rfl
@[simp] theorem State.appended_busy (n : Nat) (b : Byte) : (s.appended n b).busy = s.busy := rfl
@[simp] theorem State.appended_tlmValid (n : Nat) (b : Byte) : (s.appended n b).tlmValid = s.tlmValid := rfl
@[simp] theorem State.appended_tlm (n : Nat) (b : Byte) : (s.appended n b).tlm = s.tlm := rfl
@[simp] theorem State.appended_fault (n : Nat) (b : Byte) : (s.appended n b).fault = s.fault := rfl
@[simp] theorem State.appended_evtStrobe (n : Nat) (b : Byte) : (s.appended n b).evtStrobe = false := rfl
@[simp] theorem State.appended_evtCode (n : Nat) (b : Byte) : (s.appended n b).evtCode = 0#3 := rfl
@[simp] theorem State.appended_evtInfo (n : Nat) (b : Byte) : (s.appended n b).evtInfo = 0#2 := rfl
@[simp] theorem State.appended_src (n : Nat) (b : Byte) : (s.appended n b).src = s.src := rfl
@[simp] theorem State.appended_inputs (n : Nat) (b : Byte) : (s.appended n b).inputs = s.inputs := rfl
@[simp] theorem State.appended_rdData (n : Nat) (b : Byte) : (s.appended n b).rdData = s.rdData := rfl
@[simp] theorem State.appended_freeDraws (n : Nat) (b : Byte) : (s.appended n b).freeDraws = s.freeDraws := rfl

/-! ### setSrc -/

@[simp] theorem State.setSrc_mode (l : List Byte) : (s.setSrc l).mode = s.mode := rfl
@[simp] theorem State.setSrc_count (l : List Byte) : (s.setSrc l).count = s.count := rfl
@[simp] theorem State.setSrc_buf (l : List Byte) : (s.setSrc l).buf = s.buf := rfl
@[simp] theorem State.setSrc_busy (l : List Byte) : (s.setSrc l).busy = s.busy := rfl
@[simp] theorem State.setSrc_tlmValid (l : List Byte) : (s.setSrc l).tlmValid = s.tlmValid := rfl
@[simp] theorem State.setSrc_tlm (l : List Byte) : (s.setSrc l).tlm = s.tlm := rfl
@[simp] theorem State.setSrc_fault (l : List Byte) : (s.setSrc l).fault = s.fault := rfl
@[simp] theorem State.setSrc_evtStrobe (l : List Byte) : (s.setSrc l).evtStrobe = s.evtStrobe := rfl
@[simp] theorem State.setSrc_evtCode (l : List Byte) : (s.setSrc l).evtCode = s.evtCode := rfl
@[simp] theorem State.setSrc_evtInfo (l : List Byte) : (s.setSrc l).evtInfo = s.evtInfo := rfl
@[simp] theorem State.setSrc_src (l : List Byte) : (s.setSrc l).src = l := rfl
@[simp] theorem State.setSrc_inputs (l : List Byte) : (s.setSrc l).inputs = s.inputs := rfl
@[simp] theorem State.setSrc_rdData (l : List Byte) : (s.setSrc l).rdData = s.rdData := rfl
@[simp] theorem State.setSrc_freeDraws (l : List Byte) : (s.setSrc l).freeDraws = s.freeDraws := rfl

/-! ### setInputs -/

@[simp] theorem State.setInputs_mode (is : List Input) : (s.setInputs is).mode = s.mode := rfl
@[simp] theorem State.setInputs_count (is : List Input) : (s.setInputs is).count = s.count := rfl
@[simp] theorem State.setInputs_buf (is : List Input) : (s.setInputs is).buf = s.buf := rfl
@[simp] theorem State.setInputs_busy (is : List Input) : (s.setInputs is).busy = s.busy := rfl
@[simp] theorem State.setInputs_tlmValid (is : List Input) : (s.setInputs is).tlmValid = s.tlmValid := rfl
@[simp] theorem State.setInputs_tlm (is : List Input) : (s.setInputs is).tlm = s.tlm := rfl
@[simp] theorem State.setInputs_fault (is : List Input) : (s.setInputs is).fault = s.fault := rfl
@[simp] theorem State.setInputs_evtStrobe (is : List Input) : (s.setInputs is).evtStrobe = s.evtStrobe := rfl
@[simp] theorem State.setInputs_evtCode (is : List Input) : (s.setInputs is).evtCode = s.evtCode := rfl
@[simp] theorem State.setInputs_evtInfo (is : List Input) : (s.setInputs is).evtInfo = s.evtInfo := rfl
@[simp] theorem State.setInputs_src (is : List Input) : (s.setInputs is).src = s.src := rfl
@[simp] theorem State.setInputs_inputs (is : List Input) : (s.setInputs is).inputs = is := rfl
@[simp] theorem State.setInputs_rdData (is : List Input) : (s.setInputs is).rdData = s.rdData := rfl
@[simp] theorem State.setInputs_freeDraws (is : List Input) : (s.setInputs is).freeDraws = s.freeDraws := rfl

/-! ### setBusy -/

@[simp] theorem State.setBusy_mode (x : Bool) : (s.setBusy x).mode = s.mode := rfl
@[simp] theorem State.setBusy_count (x : Bool) : (s.setBusy x).count = s.count := rfl
@[simp] theorem State.setBusy_buf (x : Bool) : (s.setBusy x).buf = s.buf := rfl
@[simp] theorem State.setBusy_busy (x : Bool) : (s.setBusy x).busy = x := rfl
@[simp] theorem State.setBusy_tlmValid (x : Bool) : (s.setBusy x).tlmValid = s.tlmValid := rfl
@[simp] theorem State.setBusy_tlm (x : Bool) : (s.setBusy x).tlm = s.tlm := rfl
@[simp] theorem State.setBusy_fault (x : Bool) : (s.setBusy x).fault = s.fault := rfl
@[simp] theorem State.setBusy_evtStrobe (x : Bool) : (s.setBusy x).evtStrobe = s.evtStrobe := rfl
@[simp] theorem State.setBusy_evtCode (x : Bool) : (s.setBusy x).evtCode = s.evtCode := rfl
@[simp] theorem State.setBusy_evtInfo (x : Bool) : (s.setBusy x).evtInfo = s.evtInfo := rfl
@[simp] theorem State.setBusy_src (x : Bool) : (s.setBusy x).src = s.src := rfl
@[simp] theorem State.setBusy_inputs (x : Bool) : (s.setBusy x).inputs = s.inputs := rfl
@[simp] theorem State.setBusy_rdData (x : Bool) : (s.setBusy x).rdData = s.rdData := rfl
@[simp] theorem State.setBusy_freeDraws (x : Bool) : (s.setBusy x).freeDraws = s.freeDraws := rfl

/-! ### setMode -/

@[simp] theorem State.setMode_mode (m : Mode) : (s.setMode m).mode = m := rfl
@[simp] theorem State.setMode_count (m : Mode) : (s.setMode m).count = s.count := rfl
@[simp] theorem State.setMode_buf (m : Mode) : (s.setMode m).buf = s.buf := rfl
@[simp] theorem State.setMode_busy (m : Mode) : (s.setMode m).busy = s.busy := rfl
@[simp] theorem State.setMode_tlmValid (m : Mode) : (s.setMode m).tlmValid = s.tlmValid := rfl
@[simp] theorem State.setMode_tlm (m : Mode) : (s.setMode m).tlm = s.tlm := rfl
@[simp] theorem State.setMode_fault (m : Mode) : (s.setMode m).fault = s.fault := rfl
@[simp] theorem State.setMode_evtStrobe (m : Mode) : (s.setMode m).evtStrobe = s.evtStrobe := rfl
@[simp] theorem State.setMode_evtCode (m : Mode) : (s.setMode m).evtCode = s.evtCode := rfl
@[simp] theorem State.setMode_evtInfo (m : Mode) : (s.setMode m).evtInfo = s.evtInfo := rfl
@[simp] theorem State.setMode_src (m : Mode) : (s.setMode m).src = s.src := rfl
@[simp] theorem State.setMode_inputs (m : Mode) : (s.setMode m).inputs = s.inputs := rfl
@[simp] theorem State.setMode_rdData (m : Mode) : (s.setMode m).rdData = s.rdData := rfl
@[simp] theorem State.setMode_freeDraws (m : Mode) : (s.setMode m).freeDraws = s.freeDraws := rfl

/-! ### gotRead -/

@[simp] theorem State.gotRead_mode (v : Half) (n : Nat) : (s.gotRead v n).mode = s.mode := rfl
@[simp] theorem State.gotRead_count (v : Half) (n : Nat) : (s.gotRead v n).count = s.count := rfl
@[simp] theorem State.gotRead_buf (v : Half) (n : Nat) : (s.gotRead v n).buf = s.buf := rfl
@[simp] theorem State.gotRead_busy (v : Half) (n : Nat) : (s.gotRead v n).busy = s.busy := rfl
@[simp] theorem State.gotRead_tlmValid (v : Half) (n : Nat) : (s.gotRead v n).tlmValid = s.tlmValid := rfl
@[simp] theorem State.gotRead_tlm (v : Half) (n : Nat) : (s.gotRead v n).tlm = s.tlm := rfl
@[simp] theorem State.gotRead_fault (v : Half) (n : Nat) : (s.gotRead v n).fault = s.fault := rfl
@[simp] theorem State.gotRead_evtStrobe (v : Half) (n : Nat) : (s.gotRead v n).evtStrobe = s.evtStrobe := rfl
@[simp] theorem State.gotRead_evtCode (v : Half) (n : Nat) : (s.gotRead v n).evtCode = s.evtCode := rfl
@[simp] theorem State.gotRead_evtInfo (v : Half) (n : Nat) : (s.gotRead v n).evtInfo = s.evtInfo := rfl
@[simp] theorem State.gotRead_src (v : Half) (n : Nat) : (s.gotRead v n).src = s.src := rfl
@[simp] theorem State.gotRead_inputs (v : Half) (n : Nat) : (s.gotRead v n).inputs = s.inputs := rfl
@[simp] theorem State.gotRead_rdData (v : Half) (n : Nat) : (s.gotRead v n).rdData = v := rfl
@[simp] theorem State.gotRead_freeDraws (v : Half) (n : Nat) : (s.gotRead v n).freeDraws = n := rfl

/-! ### resetBlock -/

@[simp] theorem State.resetBlock_mode : (s.resetBlock).mode = .seek := rfl
@[simp] theorem State.resetBlock_count : (s.resetBlock).count = 0#6 := rfl
@[simp] theorem State.resetBlock_buf : (s.resetBlock).buf = [] := rfl
@[simp] theorem State.resetBlock_busy : (s.resetBlock).busy = false := rfl
@[simp] theorem State.resetBlock_tlmValid : (s.resetBlock).tlmValid = false := rfl
@[simp] theorem State.resetBlock_tlm : (s.resetBlock).tlm = none := rfl
@[simp] theorem State.resetBlock_fault : (s.resetBlock).fault = false := rfl
@[simp] theorem State.resetBlock_evtStrobe : (s.resetBlock).evtStrobe = false := rfl
@[simp] theorem State.resetBlock_evtCode : (s.resetBlock).evtCode = 0#3 := rfl
@[simp] theorem State.resetBlock_evtInfo : (s.resetBlock).evtInfo = 0#2 := rfl
@[simp] theorem State.resetBlock_src : (s.resetBlock).src = s.src := rfl
@[simp] theorem State.resetBlock_inputs : (s.resetBlock).inputs = s.inputs := rfl
@[simp] theorem State.resetBlock_rdData : (s.resetBlock).rdData = s.rdData := rfl
@[simp] theorem State.resetBlock_freeDraws : (s.resetBlock).freeDraws = s.freeDraws := rfl

/-! ### Updates that overwrite or leave each other -/

@[simp] theorem State.setSrc_setSrc (l l' : List Byte) : (s.setSrc l).setSrc l' = s.setSrc l' := rfl
@[simp] theorem State.setInputs_setInputs (l l' : List Input) : (s.setInputs l).setInputs l' = s.setInputs l' := rfl
@[simp] theorem State.setBusy_setBusy (x y : Bool) : (s.setBusy x).setBusy y = s.setBusy y := rfl
@[simp] theorem State.setSrc_src_self : s.setSrc s.src = s := rfl
@[simp] theorem State.setInputs_inputs_self : s.setInputs s.inputs = s := rfl
@[simp] theorem State.setBusy_busy_self : s.setBusy s.busy = s := rfl
@[simp] theorem State.emitNone_emitNone : s.emitNone.emitNone = s.emitNone := rfl
theorem State.setBusy_setSrc (x : Bool) (l : List Byte) : (s.setBusy x).setSrc l = (s.setSrc l).setBusy x := rfl
theorem State.setInputs_setSrc (is : List Input) (l : List Byte) : (s.setInputs is).setSrc l = (s.setSrc l).setInputs is := rfl
theorem State.setInputs_setBusy (is : List Input) (x : Bool) : (s.setInputs is).setBusy x = (s.setBusy x).setInputs is := rfl
theorem State.emitNone_setSrc (l : List Byte) : s.emitNone.setSrc l = (s.setSrc l).emitNone := rfl
theorem State.emitNone_setBusy (x : Bool) : s.emitNone.setBusy x = (s.setBusy x).emitNone := rfl
theorem State.emitNone_setInputs (is : List Input) : s.emitNone.setInputs is = (s.setInputs is).emitNone := rfl
theorem State.commit_setSrc (r : Telemetry) (l : List Byte) : (s.commit r).setSrc l = (s.setSrc l).commit r := rfl

/-! ### decodeFrame: the record and the valid bit, or (never in the machine) the event output -/

@[simp] theorem State.decodeFrame_mode (l : List Byte) : (s.decodeFrame l).mode = s.mode := by
  unfold State.decodeFrame; split <;> rfl
@[simp] theorem State.decodeFrame_count (l : List Byte) : (s.decodeFrame l).count = s.count := by
  unfold State.decodeFrame; split <;> rfl
@[simp] theorem State.decodeFrame_buf (l : List Byte) : (s.decodeFrame l).buf = s.buf := by
  unfold State.decodeFrame; split <;> rfl
@[simp] theorem State.decodeFrame_busy (l : List Byte) : (s.decodeFrame l).busy = s.busy := by
  unfold State.decodeFrame; split <;> rfl
@[simp] theorem State.decodeFrame_fault (l : List Byte) : (s.decodeFrame l).fault = s.fault := by
  unfold State.decodeFrame; split <;> rfl
@[simp] theorem State.decodeFrame_src (l : List Byte) : (s.decodeFrame l).src = s.src := by
  unfold State.decodeFrame; split <;> rfl
@[simp] theorem State.decodeFrame_inputs (l : List Byte) : (s.decodeFrame l).inputs = s.inputs := by
  unfold State.decodeFrame; split <;> rfl
@[simp] theorem State.decodeFrame_rdData (l : List Byte) : (s.decodeFrame l).rdData = s.rdData := by
  unfold State.decodeFrame; split <;> rfl
@[simp] theorem State.decodeFrame_freeDraws (l : List Byte) : (s.decodeFrame l).freeDraws = s.freeDraws := by
  unfold State.decodeFrame; split <;> rfl

/-- DECODE of a list of 48 bytes is the commit of its record (R140). -/
theorem State.decodeFrame_of_frame (l : List Byte) (f : Frame) (h : frameOfBytes l = some f) :
    s.decodeFrame l = s.commit (telemetryOf f) := by
  simp [State.decodeFrame, h]

/-- DECODE of any other list writes no record (R158). -/
theorem State.decodeFrame_of_short (l : List Byte) (h : l.length ≠ Config.frameLen) :
    s.decodeFrame l = s.emit .shortFrame 0#2 := by
  simp [State.decodeFrame, frameOfBytes, h]

/-! ### The state after RESET (R34) -/

@[simp] theorem State.reset_mode : State.reset.mode = .seek := rfl
@[simp] theorem State.reset_count : State.reset.count = 0#6 := rfl
@[simp] theorem State.reset_buf : State.reset.buf = [] := rfl
@[simp] theorem State.reset_busy : State.reset.busy = false := rfl
@[simp] theorem State.reset_tlmValid : State.reset.tlmValid = false := rfl
@[simp] theorem State.reset_tlm : State.reset.tlm = none := rfl
@[simp] theorem State.reset_fault : State.reset.fault = false := rfl
@[simp] theorem State.reset_evtStrobe : State.reset.evtStrobe = false := rfl
@[simp] theorem State.reset_evtCode : State.reset.evtCode = 0#3 := rfl
@[simp] theorem State.reset_evtInfo : State.reset.evtInfo = 0#2 := rfl
@[simp] theorem State.reset_src : State.reset.src = [] := rfl
@[simp] theorem State.reset_inputs : State.reset.inputs = [] := rfl
@[simp] theorem State.reset_rdData : State.reset.rdData = 0#16 := rfl
@[simp] theorem State.reset_freeDraws : State.reset.freeDraws = 0 := rfl

end Sys2Proof.Machine
end

