-- ==== Sys2Proof/Laws/Meanings.lean ====
section
/-! SUPPORT. One spec lemma per instruction: the state each meaning answers. The provers cite these instead of unfolding a meaning. -/

namespace Sys2Proof.Machine

/-- R100. -/
theorem exec_seekStart (z s24 z' : Bool) (s : State) :
    exec (.seekStart z s24 z') s = .next ((s.appended 0 Config.startMarker).setMode .acc) := by
  simp only [exec, execSeekStart, State.append_eq s 0 _ (by decide)]

/-- R101. -/
theorem exec_seekDrop (z s24 z' : Bool) (b : Byte) (s : State) : exec (.seekDrop z s24 z' b) s = .next s.emitNone := rfl

/-- R107. -/
theorem exec_illegalState (m : Bool) (c : Count) (z s24 z' : Bool) (b : Byte) (s : State) :
    exec (.illegalState m c z s24 z' b) s = .next s.raiseIllegalState := rfl

/-- R102. -/
theorem exec_accAppend (c : Count) (z s24 z' : Bool) (b : Byte) (s : State) (h : s.count.toNat < 48) :
    exec (.accAppend c z s24 z' b) s = .next (s.appended s.count.toNat b) := by
  simp only [exec, execAccAppend, State.append_eq s _ b h]

/-- R103, where the entry checked holds a value. -/
theorem exec_accChk24Pass (s24 z' : Bool) (b v : Byte) (s : State) (hv : s.buf.read 21 = some v) :
    exec (.accChk24Pass s24 z' b) s = .next (s.appended 23 b) := by
  simp only [exec, execAccChk24Pass, Config.prematureIdx, hv, State.append_eq s 23 b (by decide)]

/-- R24: the premature check reads an entry that holds no value. -/
theorem exec_accChk24Pass_empty (s24 z' : Bool) (b : Byte) (s : State) (hv : s.buf.read 21 = none) :
    exec (.accChk24Pass s24 z' b) s = .next s.raiseIllegalState := by
  simp only [exec, execAccChk24Pass, Config.prematureIdx, hv]

/-- R104. -/
theorem exec_accChk24Discard (s24 z' : Bool) (b : Byte) (s : State) :
    exec (.accChk24Discard s24 z' b) s = .next (s.clear.emit .prematureEof 0#2).endInvocation := rfl

/-- R105, where the 47 entries hold values. -/
theorem exec_accDoneOk (z : Bool) (b : Byte) (s : State) (frame : List Byte) (h : s.completedFrame b = some frame) :
    exec (.accDoneOk z b) s = .next ((s.decodeFrame frame).clear.emit .frameOk 0#2) := by
  simp only [exec, execAccDoneOk, h]

/-- R106, where both entries hold values. -/
theorem exec_accDoneBad (z s24 z' : Bool) (b : Byte) (s : State) (a e : Byte) (ha : s.buf.read 24 = some a)
    (he : s.buf.read 45 = some e) :
    exec (.accDoneBad z s24 z' b) s = .next (s.clear.emit .markerFail (markerInfo a e)) := by
  simp only [exec, execAccDoneBad, Config.alignIdx, Config.eofIdx, ha, he]

/-- R109, R217: a POLL that starts an invocation. -/
theorem exec_poll_idle (s : State) (hb : s.busy = false) (hf : s.fault = false) : exec .poll s = .next (s.setBusy true) := by
  simp [exec, execPoll, hb, hf]

/-- R110: a POLL that has no effect. -/
theorem exec_poll_ignored (s : State) (h : s.busy = true ∨ s.fault = true) : exec .poll s = .next s := by
  rcases h with h | h <;> simp [exec, execPoll, h]

/-- R117. -/
theorem exec_reset (p : Bool) (s : State) :
    exec (.reset p) s = .next s.resetBlock := rfl

/-- There is a field T0 to T13 (R26). -/
theorem Telemetry.field_isSome (r : Telemetry) (n : Nat) (h : n ≤ 13) : ∃ v, r.field n = some v := by
  interval_cases n <;> exact ⟨_, rfl⟩

/-- R118: a READ of a record that holds values. -/
theorem exec_read_record (idx : BitVec 4) (s : State) (r : Telemetry) (v : Half) (hi : idx.toNat ≤ 13) (hv : s.tlmValid = true)
    (hr : s.tlm = some r) (hf : r.field idx.toNat = some v) : exec (.read idx) s = .next (s.gotRead v s.freeDraws) := by
  simp [exec, execRead, State.rdPort, State.readsFree, hi, hv, hr, hf]

/-- R118: a READ while the record holds no value draws a free value. -/
theorem exec_read_free (idx : BitVec 4) (s : State) (hi : idx.toNat ≤ 13) (hv : (s.tlmValid && s.tlm.isSome) = false) :
    exec (.read idx) s = .next (s.gotRead (Config.freeRdData s.freeDraws) (s.freeDraws + 1)) := by
  have h : s.rdPort idx = some (Config.freeRdData s.freeDraws) := by
    unfold State.rdPort
    rw [if_pos hi]
    split
    · next h1 h2 => simp [h1, h2] at hv
    · rfl
  simp [exec, execRead, h, State.readsFree, hv]

/-- R118: no field above T13. -/
theorem exec_read_refused (idx : BitVec 4) (s : State) (hi : ¬ idx.toNat ≤ 13) :
    exec (.read idx) s = .refused (.noTelemetryField idx) := by
  simp [exec, execRead, State.rdPort, hi]

/-- Everything a READ can do. -/
theorem exec_read_cases (idx : BitVec 4) (s t : State) (h : exec (.read idx) s = .next t) :
    idx.toNat ≤ 13 ∧ ∃ v n, t = s.gotRead v n := by
  by_cases hi : idx.toNat ≤ 13
  · refine ⟨hi, ?_⟩
    by_cases hv : (s.tlmValid && s.tlm.isSome) = false
    · rw [exec_read_free idx s hi hv] at h; cases h; exact ⟨_, _, rfl⟩
    · simp only [Bool.and_eq_false_iff, not_or, Bool.not_eq_false] at hv
      obtain ⟨r, hr⟩ := Option.isSome_iff_exists.mp hv.2
      obtain ⟨v, hf⟩ := r.field_isSome idx.toNat hi
      rw [exec_read_record idx s r v hi hv.1 hr hf] at h; cases h; exact ⟨v, s.freeDraws, rfl⟩
  · rw [exec_read_refused idx s hi] at h; cases h

/-- The list DECODE is given has 48 bytes (R158). -/
theorem State.completedFrame_length (s : State) (b : Byte) (l : List Byte) (h : s.completedFrame b = some l) : l.length = 48 := by
  simp only [State.completedFrame, Option.map_eq_some_iff] at h
  obtain ⟨l', h1, rfl⟩ := h
  simp [Memory.readRange_length _ _ _ _ h1]

/-- A list of 48 bytes is a frame, byte for byte. -/
theorem frameOfBytes_of_length (l : List Byte) (h : l.length = 48) :
    ∃ f : Frame, frameOfBytes l = some f ∧ f.toList = l := by
  refine ⟨⟨l.toArray, by simpa using h⟩, ?_, by simp⟩
  simp [frameOfBytes, Config.frameLen, h]

/-- R105 in one piece: the frame committed is the 47 held bytes and b. -/
theorem State.decodeFrame_completed (s : State) (b : Byte) (l : List Byte) (h : s.completedFrame b = some l) :
    ∃ f : Frame, f.toList = l ∧ s.decodeFrame l = s.commit (telemetryOf f) := by
  obtain ⟨f, h1, h2⟩ := frameOfBytes_of_length l (s.completedFrame_length b l h)
  exact ⟨f, h2, s.decodeFrame_of_frame l f h1⟩

end Sys2Proof.Machine
end

