-- ==== Sys2Proof/Laws/Step.lean ====
section
/-! SUPPORT. Everything a step can do, said once: what a selected byte step leaves, and the cases of a step that answers a next state. -/

namespace Sys2Proof.Machine

/-- What a byte step selected by the state leaves (R100 to R107): one of the states below. -/
inductive ByteStepResult (s : State) (b : Byte) : State → Prop
  | seekStart (hm : s.mode = .seek) (hc : s.count = 0#6) (hb : b = Config.startMarker) :
      ByteStepResult s b ((s.appended 0 b).setMode .acc)
  | seekDrop (hm : s.mode = .seek) (hc : s.count = 0#6) (hb : b ≠ Config.startMarker) : ByteStepResult s b s.emitNone
  | discard (hm : s.mode = .acc) (hc : s.count = 23#6) (hz : s.buf.read 21 = some Config.eofMarker) :
      ByteStepResult s b (s.clear.emit .prematureEof 0#2).endInvocation
  | pass (v : Byte) (hm : s.mode = .acc) (hc : s.count = 23#6) (hv : s.buf.read 21 = some v) (hz : v ≠ Config.eofMarker) :
      ByteStepResult s b (s.appended 23 b)
  | doneOk (f : Frame) (hm : s.mode = .acc) (hc : s.count = 47#6) (ha : s.buf.read 24 = some Config.startMarker)
      (he : s.buf.read 45 = some Config.eofMarker) (hf : s.completedFrame b = some f.toList) :
      ByteStepResult s b ((s.commit (telemetryOf f)).clear.emit .frameOk 0#2)
  | doneBad (a e : Byte) (hm : s.mode = .acc) (hc : s.count = 47#6) (ha : s.buf.read 24 = some a) (he : s.buf.read 45 = some e)
      (hn : ¬ (a = Config.startMarker ∧ e = Config.eofMarker)) :
      ByteStepResult s b (s.clear.emit .markerFail (markerInfo a e))
  | append (hm : s.mode = .acc) (h1 : 1 ≤ s.count.toNat) (h46 : s.count.toNat ≤ 46) (h23 : s.count ≠ 23#6) :
      ByteStepResult s b (s.appended s.count.toNat b)
  | raise (h : (s.mode = .seek ∧ s.count ≠ 0#6) ∨ (s.mode = .acc ∧ (s.count = 0#6 ∨ 48 ≤ s.count.toNat)) ∨
        (s.mode = .acc ∧ s.count = 47#6 ∧ ∃ i : Nat, i < 47 ∧ s.buf.read i = none) ∨
        (s.mode = .acc ∧ s.count = 23#6 ∧ s.buf.read 21 = none)) :
      ByteStepResult s b s.raiseIllegalState

/-- The selected instruction, from the registers and the buffer (R76). -/
theorem State.selected_eq (s : State) (b : Byte) :
    s.selected b =
      (let z := holdsEof (s.buf.read 21); let s24 := holdsStart (s.buf.read 24); let z' := holdsEof (s.buf.read 45)
       match s.mode with
       | .seek =>
         if s.count = 0#6 then if b = Config.startMarker then .seekStart z s24 z' else .seekDrop z s24 z' b
         else .illegalState false s.count z s24 z' b
       | .acc =>
         if s.count = 23#6 then if z = true then .accChk24Discard s24 z' b else .accChk24Pass s24 z' b
         else if s.count = 47#6 then if s24 = true ∧ z' = true then .accDoneOk z b else .accDoneBad z s24 z' b
         else if 1 ≤ s.count.toNat ∧ s.count.toNat ≤ 46 then .accAppend s.count z s24 z' b
         else .illegalState true s.count z s24 z' b) := by
  rw [State.selected, State.decisionWord, decodeByteStep_wordOf]
  cases s.mode <;> simp [Mode.bit, Config.prematureIdx, Config.alignIdx, Config.eofIdx]

theorem Memory.readRange_none (m : Memory) (n start : Nat) (h : m.readRange start n = none) :
    ∃ i, start ≤ i ∧ i < start + n ∧ m.read i = none := by
  by_contra hc
  obtain ⟨l, hl, _⟩ := m.readRange_spec n start (fun i h1 h2 => by
    cases hr : m.read i with
    | none => exact absurd ⟨i, h1, h2, hr⟩ hc
    | some v => rfl)
  simp [hl] at h

@[simp] theorem holdsEof_eq_true (e : Option Byte) : holdsEof e = true ↔ e = some Config.eofMarker := by simp [holdsEof]
@[simp] theorem holdsStart_eq_true (e : Option Byte) : holdsStart e = true ↔ e = some Config.startMarker := by simp [holdsStart]

/-- A selected byte step always answers a next state, one of the eight. -/
theorem exec_selected (s : State) (b : Byte) : ∃ t, exec (s.selected b) s = .next t ∧ ByteStepResult s b t := by
  rw [State.selected_eq]
  cases hm : s.mode with
  | seek =>
    simp only
    split_ifs with h1 h2
    · subst h2; exact ⟨_, exec_seekStart _ _ _ s, .seekStart hm h1 rfl⟩
    · exact ⟨_, rfl, .seekDrop hm h1 h2⟩
    · exact ⟨_, rfl, .raise (.inl ⟨hm, h1⟩)⟩
  | acc =>
    simp only [holdsEof_eq_true, holdsStart_eq_true]
    split_ifs with h1 h2 h3 h4 h5
    · exact ⟨_, rfl, .discard hm h1 h2⟩
    · cases hv : s.buf.read 21 with
      | none => exact ⟨_, exec_accChk24Pass_empty _ _ b s hv, .raise (.inr (.inr (.inr ⟨hm, h1, hv⟩)))⟩
      | some v => exact ⟨_, exec_accChk24Pass _ _ b v s hv, .pass v hm h1 hv (fun h => h2 (by rw [hv, h]))⟩
    · cases hf : s.completedFrame b with
      | none =>
        refine ⟨s.raiseIllegalState, by simp [exec, execAccDoneOk, hf], .raise (.inr (.inr (.inl ⟨hm, h3, ?_⟩)))⟩
        simp only [State.completedFrame, Option.map_eq_none_iff] at hf
        obtain ⟨i, _, hi, hr⟩ := Memory.readRange_none _ _ _ hf
        exact ⟨i, by omega, hr⟩
      | some l =>
        obtain ⟨f, h6, h7⟩ := s.decodeFrame_completed b l hf
        refine ⟨_, exec_accDoneOk _ b s l hf, ?_⟩
        rw [h7]
        exact .doneOk f hm h3 h4.1 h4.2 (by rw [hf, h6])
    · cases ha : s.buf.read 24 with
      | none =>
        exact ⟨s.raiseIllegalState, by simp [exec, execAccDoneBad, Config.alignIdx, ha],
          .raise (.inr (.inr (.inl ⟨hm, h3, 24, by omega, ha⟩)))⟩
      | some a =>
        cases he : s.buf.read 45 with
        | none =>
          exact ⟨s.raiseIllegalState, by simp [exec, execAccDoneBad, Config.alignIdx, Config.eofIdx, ha, he],
            .raise (.inr (.inr (.inl ⟨hm, h3, 45, by omega, he⟩)))⟩
        | some e =>
          refine ⟨_, exec_accDoneBad _ _ _ b s a e ha he, .doneBad a e hm h3 ha he ?_⟩
          rintro ⟨rfl, rfl⟩
          exact h4 ⟨ha, he⟩
    · exact ⟨_, exec_accAppend _ _ _ _ b s (by omega), .append hm h5.1 h5.2 h1⟩
    · refine ⟨_, rfl, .raise (.inr (.inl ⟨hm, ?_⟩))⟩
      by_cases h0 : s.count = 0#6
      · exact .inl h0
      · right
        have h6 : s.count.toNat ≠ 0 := fun h => h0 (BitVec.eq_of_toNat_eq h)
        have h7 : s.count.toNat ≠ 47 := fun h => h3 (BitVec.eq_of_toNat_eq h)
        omega

/-- What a clock edge with h can do to a state whose input has been taken (R217). -/
inductive EdgeResult (h : BitVec 2) (s : State) : State → Prop
  | reset (hr : h.getLsbD 1 = true) :
      EdgeResult h s s.resetBlock
  | poll (hh : h = 1#2) (hb : s.busy = false) (hf : s.fault = false) : EdgeResult h s (s.emitNone.setBusy true)
  | pollIgnored (hh : h = 1#2) (hb : s.busy = false) (hf : s.fault = true) : EdgeResult h s s.emitNone
  | idle (hh : h = 0#2) (hb : s.busy = false) : EdgeResult h s s.emitNone
  | ends (hr : h.getLsbD 1 = false) (hb : s.busy = true) (he : s.src = [] ∨ s.fault = true) :
      EdgeResult h s s.emitNone.endInvocation
  | byte (b : Byte) (rest : List Byte) (t : State) (hr : h.getLsbD 1 = false) (hb : s.busy = true) (hf : s.fault = false)
      (hs : s.src = b :: rest) (hx : exec ((s.emitNone.setSrc rest).selected b) (s.emitNone.setSrc rest) = .next t)
      (ht : ByteStepResult (s.emitNone.setSrc rest) b t) : EdgeResult h s t

/-- A clock edge always answers a next state, one of the six. -/
theorem State.clockEdge_total (h : BitVec 2) (s : State) : ∃ t, s.clockEdge h = .next t ∧ EdgeResult h s t := by
  have drain : h.getLsbD 1 = false → (h = 0#2 ∨ s.busy = true) → ∃ t, s.emitNone.drainEdge = .next t ∧ EdgeResult h s t := by
    intro hr hh
    unfold State.drainEdge
    by_cases hb : s.busy = true
    · by_cases hf : s.fault = true
      · exact ⟨_, by simp [hb, hf], .ends hr hb (.inr hf)⟩
      · cases hs : s.src with
        | nil => exact ⟨_, by simp [hb, hf, State.srcRead, hs], .ends hr hb (.inl hs)⟩
        | cons b rest =>
          obtain ⟨t, h1, h2⟩ := exec_selected (s.emitNone.setSrc rest) b
          exact ⟨t, by simpa [hb, hf, State.srcRead, hs] using h1, .byte b rest t hr hb (by simpa using hf) hs h1 h2⟩
    · exact ⟨_, by simp [hb], .idle (hh.resolve_right hb) (by simpa using hb)⟩
  have hh : ∀ x : BitVec 2, x = 0#2 ∨ x = 1#2 ∨ x.getLsbD 1 = true := by decide
  unfold State.clockEdge State.hostEvent
  rcases hh h with rfl | rfl | hr
  · rw [decodeHost_eq]
    simpa using drain (by decide) (.inl rfl)
  · rw [decodeHost_eq]
    by_cases hb : s.busy = true
    · simpa [hb] using drain (by decide) (.inr hb)
    · have hb' : s.busy = false := by simpa using hb
      cases hf : s.fault
      · exact ⟨s.emitNone.setBusy true, by simp [hb', hf, exec, execPoll], .poll rfl hb' hf⟩
      · exact ⟨s.emitNone, by simp [hb', hf, exec, execPoll], .pollIgnored rfl hb' hf⟩
  · rw [decodeHost_rst h hr]
    exact ⟨_, rfl, .reset hr⟩

/-- Everything a step that answers a next state can have done. -/
theorem step_cases (s t : State) (h : step s = .next t) :
    (∃ b is, s.inputs = .push b :: is ∧ t = (s.setInputs is).pushByte b) ∨
    (∃ idx is v n, s.inputs = .read idx :: is ∧ idx.toNat ≤ 13 ∧ t = (s.setInputs is).gotRead v n) ∨
    (∃ h0 is, (s.inputs = .edge h0 :: is ∨ (s.inputs = [] ∧ is = [] ∧ h0 = 0#2)) ∧ EdgeResult h0 (s.setInputs is) t) := by
  unfold step State.takeInput at h
  split at h
  · next hi =>
    obtain ⟨t', h1, h2⟩ := s.clockEdge_total 0b00#2
    rw [h1] at h; cases h
    refine .inr (.inr ⟨0#2, [], .inr ⟨hi, rfl, rfl⟩, ?_⟩)
    rw [← hi, State.setInputs_inputs_self]; exact h2
  · next x is hi =>
    cases x with
    | push b => simp only [State.runInput] at h; cases h; exact .inl ⟨b, is, hi, rfl⟩
    | edge h0 =>
      obtain ⟨t', h1, h2⟩ := (s.setInputs is).clockEdge_total h0
      simp only [State.runInput] at h
      rw [h1] at h; cases h
      exact .inr (.inr ⟨h0, is, .inl hi, h2⟩)
    | read idx =>
      simp only [State.runInput, State.sinkRead, decodeSink] at h
      by_cases h13 : idx.toNat ≤ 13
      · simp only [h13, if_true] at h
        obtain ⟨_, v, n, rfl⟩ := exec_read_cases idx _ t h
        exact .inr (.inl ⟨idx, is, v, n, hi, h13, rfl⟩)
      · simp [h13] at h

end Sys2Proof.Machine
end

