-- ==== Sys2Proof/Laws/Invocation.lean ====
section
/-! SUPPORT. The laws of the byte step and of the loop of R109 as whole functions: what they read, what they carry along, and one turn. -/

namespace Sys2Proof.Machine

/-! ### What DECODE and the byte step carry along unread -/

theorem State.decodeFrame_emitNone (l : List Byte) (s : State) (e : Event) (i : BitVec 2) :
    (s.emitNone.decodeFrame l).clear.emit e i = (s.decodeFrame l).clear.emit e i := by
  unfold State.decodeFrame; split <;> rfl

theorem State.decodeFrame_setSrc (x l : List Byte) (s : State) (e : Event) (i : BitVec 2) :
    ((s.setSrc l).decodeFrame x).clear.emit e i = ((s.decodeFrame x).clear.emit e i).setSrc l := by
  unfold State.decodeFrame; split <;> rfl

theorem State.decodeFrame_setInputs (is : List Input) (l : List Byte) (s : State) (e : Event) (i : BitVec 2) :
    ((s.setInputs is).decodeFrame l).clear.emit e i = ((s.decodeFrame l).clear.emit e i).setInputs is := by
  unfold State.decodeFrame; split <;> rfl

/-- The byte step does not read the event output. -/
theorem byteStep_emitNone (b : Byte) (s : State) : byteStep b s.emitNone = byteStep b s := by
  unfold byteStep
  simp only [show ∀ l, (State.decodeFrame l s.emitNone).clear.emit .frameOk 0#2 = (State.decodeFrame l s).clear.emit .frameOk 0#2 from
    fun l => State.decodeFrame_emitNone l s _ _]
  rfl

/-- The byte step does not read the byte source: its byte is already consumed. -/
theorem byteStep_setSrc (b : Byte) (s : State) (l : List Byte) :
    byteStep b (s.setSrc l) = ((byteStep b s).1.setSrc l, (byteStep b s).2) := by
  unfold byteStep
  have hc : (s.setSrc l).completedFrame b = s.completedFrame b := rfl
  simp only [State.setSrc_mode, State.setSrc_count, State.setSrc_buf, hc, State.decodeFrame_setSrc]
  split_ifs <;> (try rfl)
  · split <;> (try rfl)
    split_ifs <;> rfl
  · split <;> (try rfl)
    split_ifs
    · cases s.completedFrame b <;> rfl
    · rfl

/-- The byte step does not read the schedule. -/
theorem byteStep_setInputs (b : Byte) (s : State) (is : List Input) :
    byteStep b (s.setInputs is) = ((byteStep b s).1.setInputs is, (byteStep b s).2) := by
  unfold byteStep
  have hc : (s.setInputs is).completedFrame b = s.completedFrame b := rfl
  simp only [State.setInputs_mode, State.setInputs_count, State.setInputs_buf, hc, State.decodeFrame_setInputs]
  split_ifs <;> (try rfl)
  · split <;> (try rfl)
    split_ifs <;> rfl
  · split <;> (try rfl)
    split_ifs
    · cases s.completedFrame b <;> rfl
    · rfl

/-! ### The cases of the byte step (R116) -/

theorem byteStep_drop (s : State) (b : Byte) (hm : s.mode = .seek) (hc : s.count = 0#6) (hb : b ≠ 0x76#8) :
    byteStep b s = (s.emitNone, false) := by
  simp [byteStep, hm, hc, hb]

theorem byteStep_start (s : State) (hm : s.mode = .seek) (hc : s.count = 0#6) :
    byteStep 0x76#8 s = ((s.appended 0 0x76#8).setMode .acc, false) := by
  simp [byteStep, hm, hc]

theorem byteStep_append (s : State) (b : Byte) (hm : s.mode = .acc) (h1 : 1 ≤ s.count.toNat) (h2 : s.count.toNat ≤ 46)
    (h3 : s.count.toNat ≠ 23) : byteStep b s = (s.appended s.count.toNat b, false) := by
  simp [byteStep, hm, h1, h3, show s.count.toNat ≤ 47 by omega, show s.count.toNat ≠ 47 by omega]

theorem byteStep_pass (s : State) (b v : Byte) (hm : s.mode = .acc) (h1 : s.count.toNat = 23) (hv : s.buf.read 21 = some v)
    (hz : v ≠ 0#8) : byteStep b s = (s.appended 23 b, false) := by
  simp [byteStep, hm, h1, Config.prematureIdx, hv, hz]

theorem byteStep_discard (s : State) (b : Byte) (hm : s.mode = .acc) (h1 : s.count.toNat = 23) (hv : s.buf.read 21 = some 0#8) :
    byteStep b s = (s.clear.emit .prematureEof 0#2, true) := by
  simp [byteStep, hm, h1, Config.prematureIdx, hv]

/-! ### One turn of the loop (R109) -/

theorem State.drain_cons (b : Byte) (rest : List Byte) (s : State) :
    State.drain (b :: rest) s =
      let r := byteStep b (s.setSrc rest)
      let seen := if r.1.evtStrobe then [(r.1.evtCode, r.1.evtInfo)] else []
      if r.2 || r.1.fault then (r.1.endInvocation, seen)
      else
        let d := State.drain rest r.1
        (d.1, seen ++ d.2) := rfl

/-- A turn that neither reports nor ends. -/
theorem State.drain_quiet (s t : State) (b : Byte) (rest : List Byte) (h : byteStep b (s.setSrc rest) = (t, false))
    (hf : t.fault = false) (he : t.evtStrobe = false) : State.drain (b :: rest) s = State.drain rest t := by
  simp [State.drain, h, hf, he]

/-- The loop does not read the event output it starts with. -/
theorem State.drain_emitNone (l : List Byte) (s : State) : State.drain l s.emitNone = State.drain l s := by
  cases l with
  | nil => rfl
  | cons b rest =>
    rw [State.drain_cons, State.drain_cons, show s.emitNone.setSrc rest = (s.setSrc rest).emitNone from rfl, byteStep_emitNone]

/-- The loop over a list does not read the source register. -/
theorem State.drain_setSrc (l l' : List Byte) (s : State) : State.drain l (s.setSrc l') = State.drain l s := by
  cases l <;> rfl

/-- The loop carries the schedule along. -/
theorem State.drain_setInputs (l : List Byte) (s : State) (is : List Input) :
    State.drain l (s.setInputs is) = ((State.drain l s).1.setInputs is, (State.drain l s).2) := by
  induction l generalizing s with
  | nil => rfl
  | cons b rest ih =>
    rw [State.drain_cons, State.drain_cons, show (s.setInputs is).setSrc rest = (s.setSrc rest).setInputs is from rfl, byteStep_setInputs]
    generalize byteStep b (s.setSrc rest) = r
    obtain ⟨t, x⟩ := r
    dsimp only
    by_cases hx : (x || t.fault) = true
    · rw [if_pos (show (x || (t.setInputs is).fault) = true from hx), if_pos hx]; rfl
    · rw [if_neg (show ¬ (x || (t.setInputs is).fault) = true from hx), if_neg hx, ih t]; rfl

/-- An edge of a running invocation that consumes a byte, whatever else the host drives but RESET (R110, R217). -/
theorem State.clockEdge_busy_cons (s : State) (h : BitVec 2) (b : Byte) (rest : List Byte) (hr : h.getLsbD 1 = false) (hb : s.busy = true)
    (hf : s.fault = false) (hs : s.src = b :: rest) :
    s.clockEdge h = exec ((s.emitNone.setSrc rest).selected b) (s.emitNone.setSrc rest) := by
  have hh : ∀ x : BitVec 2, x = 0#2 ∨ x = 1#2 ∨ x.getLsbD 1 = true := by decide
  rcases hh h with rfl | rfl | h1
  · simp [State.clockEdge, State.hostEvent, decodeHost_eq, State.drainEdge, hb, State.srcRead, hs, hf]
  · simp [State.clockEdge, State.hostEvent, decodeHost_eq, State.drainEdge, hb, State.srcRead, hs, hf]
  · exact absurd h1 (by rw [hr]; simp)

/-- A step at a scheduled edge. -/
theorem step_edge (s : State) (h : BitVec 2) (is : List Input) (hi : s.inputs = .edge h :: is) :
    step s = (s.setInputs is).clockEdge h := by
  simp only [step, State.takeInput, hi, State.runInput]

/-- An edge of an invocation that finds no byte, the schedule being empty. -/
theorem step_busy_nil (s : State) (hb : s.busy = true) (hi : s.inputs = []) (hs : s.src = []) :
    step s = .next (s.emitNone.setSrc []).endInvocation := by
  simp only [step, State.takeInput, hi]
  simp [State.clockEdge, State.hostEvent, decodeHost_eq, State.drainEdge, hb, State.srcRead, hs]
  rw [← hs]; rfl

/-- An edge of an invocation that consumes a byte, the schedule being empty. -/
theorem step_busy_cons (s : State) (b : Byte) (rest : List Byte) (hb : s.busy = true) (hf : s.fault = false) (hi : s.inputs = [])
    (hs : s.src = b :: rest) : step s = exec ((s.emitNone.setSrc rest).selected b) (s.emitNone.setSrc rest) := by
  simp only [step, State.takeInput, hi]
  simp [State.clockEdge, State.hostEvent, decodeHost_eq, State.drainEdge, hb, State.srcRead, hs, hf]

end Sys2Proof.Machine
end

