-- ==== Sys2Proof/Laws/PerInstr.lean ====
section
/-! SUPPORT. The statements made per instruction: the word of a well-formed BYTESTEP instruction selects that instruction's own row of R76
among all eight, and the words of the other two formats are no decision words. -/

namespace Sys2Proof.Laws.EncodeSelectsRow

/-- The row of R76 an instruction is named after; POLL, RESET and READ are no rows of R76. -/
def rowOf : Instr → Option ByteAction
  | .seekStart .. => some .seekStart
  | .seekDrop .. => some .seekDrop
  | .accChk24Discard .. => some .accChk24Discard
  | .accChk24Pass .. => some .accChk24Pass
  | .accDoneOk .. => some .accDoneOk
  | .accDoneBad .. => some .accDoneBad
  | .accAppend .. => some .accAppend
  | .illegalState .. => some .illegalState
  | .poll => none
  | .reset _ => none
  | .read _ => none

/-- The row the word of an instruction selects by mask, match, constraint and priority. -/
def selectedRow : Encoded → Option ByteAction
  | .byteStep w => some (selectAction w)
  | .host _ => none
  | .sink _ => none

/-- A well-formed instruction's word selects its own row. -/
def Statement (i : Instr) : Prop := i.wf = true → selectedRow (encode i) = rowOf i

theorem seekStart (z21 s24 z45 : Bool) : Statement (.seekStart z21 s24 z45) := by
  simp [Statement, encode, selectedRow, rowOf, selectAction_wordOf]

theorem seekDrop (z21 s24 z45 : Bool) (b : Byte) : Statement (.seekDrop z21 s24 z45 b) := by
  intro h
  have hb : b ≠ 0x76#8 := by simpa [Instr.wf] using h
  simp [encode, selectedRow, rowOf, selectAction_wordOf, hb]

theorem accChk24Discard (s24 z45 : Bool) (b : Byte) : Statement (.accChk24Discard s24 z45 b) := by
  simp [Statement, encode, selectedRow, rowOf, selectAction_wordOf]

theorem accChk24Pass (s24 z45 : Bool) (b : Byte) : Statement (.accChk24Pass s24 z45 b) := by
  simp [Statement, encode, selectedRow, rowOf, selectAction_wordOf]

theorem accDoneOk (z21 : Bool) (b : Byte) : Statement (.accDoneOk z21 b) := by
  simp [Statement, encode, selectedRow, rowOf, selectAction_wordOf]

theorem accDoneBad (z21 s24 z45 : Bool) (b : Byte) : Statement (.accDoneBad z21 s24 z45 b) := by
  intro h
  have hz : ¬ (s24 = true ∧ z45 = true) := by rintro ⟨rfl, rfl⟩; simp [Instr.wf] at h
  simp [encode, selectedRow, rowOf, selectAction_wordOf, hz]

theorem accAppend (c : Count) (z21 s24 z45 : Bool) (b : Byte) : Statement (.accAppend c z21 s24 z45 b) := by
  intro h
  have hc : (1 ≤ c.toNat ∧ c.toNat ≤ 46) ∧ c.toNat ≠ 23 := by simpa [Instr.wf] using h
  have h23 : c ≠ 23#6 := fun e => hc.2 (by simp [e])
  have h47 : c ≠ 47#6 := fun e => by simp [e] at hc
  simp [encode, selectedRow, rowOf, selectAction_wordOf, h23, h47, hc.1]

theorem illegalState (m : Bool) (c : Count) (z21 s24 z45 : Bool) (b : Byte) : Statement (.illegalState m c z21 s24 z45 b) := by
  intro h
  cases m with
  | false =>
    have hc : c ≠ 0#6 := fun e => by simp [Instr.wf, e] at h
    simp [encode, selectedRow, rowOf, selectAction_wordOf, hc]
  | true =>
    have hc : c.toNat = 0 ∨ 48 ≤ c.toNat := by simpa [Instr.wf] using h
    have h23 : c ≠ 23#6 := fun e => by simp [e] at hc
    have h47 : c ≠ 47#6 := fun e => by simp [e] at hc
    have hr : ¬ (1 ≤ c.toNat ∧ c.toNat ≤ 46) := by omega
    simp [encode, selectedRow, rowOf, selectAction_wordOf, h23, h47, hr]

theorem poll : Statement .poll := fun _ => rfl

theorem reset (withPoll : Bool) : Statement (.reset withPoll) := fun _ => rfl

theorem read (idx : BitVec 4) : Statement (.read idx) := fun _ => rfl

end Sys2Proof.Laws.EncodeSelectsRow
end

