-- ==== Sys2Proof/Tests/Slice0.lean ====
section
/-! SUPPORT. The model's own tests. Expected results come from 95_test_vectors.md (the vector is named at each) and from the opcode table
of 30_encoding.md; the witness theorems show that the hypotheses of each obligation can be met together. -/

namespace Sys2Proof.Tests

open Sys2Proof Sys2Proof.Machine Sys2Proof.Safety

/-! ### Well-formedness: one ill-formed term for each check, and the edges of the ranges -/

theorem test_wf_seekDrop : Instr.wf (.seekDrop true true true 0x76#8) = false := by decide
theorem test_wf_accDoneBad : Instr.wf (.accDoneBad false true true 0x00#8) = false := by decide
theorem test_wf_accAppend : ∀ c ∈ [0#6, 23#6, 47#6, 48#6, 63#6], Instr.wf (.accAppend c false false false 0x00#8) = false := by decide
theorem test_wf_illegalState :
    Instr.wf (.illegalState false 0#6 false false false 0x76#8) = false ∧
    Instr.wf (.illegalState true 1#6 false false false 0x76#8) = false ∧
    Instr.wf (.illegalState true 47#6 false false false 0x76#8) = false := by decide
theorem test_wf_read : Instr.wf (.read 14#4) = false ∧ Instr.wf (.read 15#4) = false := by decide

/-! ### Decoding: one word of each row, written from R75, R76 and R77 -/

theorem test_decode_seekStart : decode (.byteStep 0b0_000000_1_0_1_01110110#18) = .ok (.seekStart true false true) := rfl
theorem test_decode_seekDrop : decode (.byteStep 0b0_000000_0_1_0_01110111#18) = .ok (.seekDrop false true false 0x77#8) := rfl
theorem test_decode_accChk24Discard : decode (.byteStep 0b1_010111_1_0_1_00000001#18) = .ok (.accChk24Discard false true 0x01#8) := rfl
theorem test_decode_accChk24Pass : decode (.byteStep 0b1_010111_0_1_0_01010101#18) = .ok (.accChk24Pass true false 0x55#8) := rfl
theorem test_decode_accDoneOk : decode (.byteStep 0b1_101111_0_1_1_10000000#18) = .ok (.accDoneOk false 0x80#8) := rfl
theorem test_decode_accDoneBad : decode (.byteStep 0b1_101111_1_0_1_00000000#18) = .ok (.accDoneBad true false true 0x00#8) := rfl
theorem test_decode_accAppend : decode (.byteStep 0b1_101110_0_1_0_00000001#18) = .ok (.accAppend 46#6 false true false 0x01#8) := rfl
theorem test_decode_illegalState :
    decode (.byteStep 0b1_110000_0_0_1_01110110#18) = .ok (.illegalState true 48#6 false false true 0x76#8) := rfl
theorem test_decode_poll : decode (.host 0b01#2) = .ok .poll := rfl
theorem test_decode_reset : decode (.host 0b11#2) = .ok (.reset true) := rfl
theorem test_decode_read : decode (.sink 0b1001#4) = .ok (.read 9#4) := rfl
theorem test_decode_noHostEvent : decode (.host 0b00#2) = .error .noHostEvent := rfl

/-! ### Small states, and the reference frame of 95_test_vectors.md section 0 -/

/-- A buffer that holds these bytes from an index on. -/
def cells : Nat → List Byte → Memory
  | _, [] => []
  | i, b :: l => (i, b) :: cells (i + 1) l

/-- Seeking, an invocation running, these bytes available. -/
def seeking (src : List Byte) : State := { State.reset with busy := true, src := src }

/-- A candidate of these bytes, an invocation running, these bytes available. -/
def holding (held src : List Byte) : State :=
  { State.reset with mode := .acc, count := BitVec.ofNat 6 held.length, buf := cells 0 held, busy := true, src := src }

/-- The state after an outcome, if it is one. -/
def nextOf (o : Host.Outcome State Fault Refusal) : Option State :=
  match o with
  | .next t => some t
  | .fault _ => none
  | .refused _ => none

/-- CommandHalf of F. -/
def commandF : List Byte :=
  [0x76#8, 0x16#8, 0x0C#8, 0x16#8, 0x14#8] ++ List.replicate 16 0x00#8 ++ [0x01#8, 0x00#8, 0x00#8]

/-- ResponseHalf of F with the run-state and error codes given (F: 05, 00; F2: 63, FF; F4's error code: 04). -/
def responseOf (run err : Byte) : List Byte :=
  [0x76#8, 0x16#8, run, 0x01#8, 0x00#8, 0x7B#8, 0x0B#8, 0xB8#8, 0x00#8, 0x50#8, 0x00#8, 0x64#8, 0x00#8, 0x6E#8, 0x01#8, 0x2C#8, 0x2A#8, err] ++
    List.replicate 6 0x00#8

/-- F and its variants as bytes. -/
def bytesOf (run err : Byte) : List Byte := commandF ++ responseOf run err

/-- F, F2 and the like as frames. -/
def frameOf (run err : Byte) : Frame := ⟨(bytesOf run err).toArray, rfl⟩

/-- The first n bytes of F, with the byte at one index replaced. -/
def startOf (n i : Nat) (b : Byte) : List Byte := ((bytesOf 0x05#8 0x00#8).set i b).take n

/-! ### One step of each instruction -/

/-- V1. -/
theorem test_step_seekStart :
    (nextOf (step (seeking [0x76#8, 0x01#8]))).map (fun t => (t.mode, t.count, t.buf, t.src)) = some (.acc, 1#6, [(0, 0x76#8)], [0x01#8]) := by decide
/-- V3. -/
theorem test_step_seekDrop :
    (nextOf (step (seeking [0x77#8]))).map (fun t => (t.mode, t.count, t.buf, t.src)) = some (.seek, 0#6, [], []) := by decide
/-- V5: a start marker inside a candidate does not restart it. -/
theorem test_step_accAppend_marker :
    (nextOf (step (holding [0x76#8] [0x76#8]))).map (fun t => (t.mode, t.count, t.buf)) = some (.acc, 2#6, [(0, 0x76#8), (1, 0x76#8)]) := by decide
/-- V11. -/
theorem test_step_accAppend_last :
    (nextOf (step (holding (startOf 46 0 0x76#8) [0x00#8]))).map (fun t => (t.count, t.buf.read 46, t.evtStrobe)) = some (47#6, some 0x00#8, false) := by decide
/-- V8. -/
theorem test_step_accChk24Pass :
    (nextOf (step (holding (startOf 23 21 0x76#8) [0x55#8]))).map (fun t => (t.mode, t.count, t.buf.read 23, t.busy)) = some (.acc, 24#6, some 0x55#8, true) := by decide
/-- V9. -/
theorem test_step_accChk24Discard :
    (nextOf (step (holding (startOf 23 21 0x00#8) [0x01#8, 0x02#8]))).map (fun t => (t.mode, t.busy, t.evtCode, t.src)) =
      some (.seek, false, 2#3, [0x02#8]) := by decide
/-- V12 with F: the record of section 0. -/
theorem test_step_accDoneOk_F :
    (nextOf (step (holding (startOf 47 0 0x76#8) [0x00#8]))).bind (fun t => t.tlm) =
      some { setTemp := 22#8, desiredTemp := 20#8, runStateCode := 5#8, onOff := true, supplyVoltageRaw := 123#16, fanSpeed := 3000#16,
             fanVoltageRaw := 80#16, heatExchangerTemp := 100#16, glowPlugVoltageRaw := 110#16, glowPlugCurrentRaw := 300#16,
             pumpFreqRaw := 42#8, errorCode := 0#8, errorSel := 0#4, runStateSel := 5#4 } := by decide
/-- S7, S8 with F2: the unknown codes. -/
theorem test_step_accDoneOk_F2 :
    (nextOf (step (holding ((bytesOf 0x63#8 0xFF#8).take 47) [0xFF#8]))).map
      (fun t => (t.evtCode, t.tlm.map (fun r => (r.runStateSel, r.errorSel)))) = some (1#3, some (15#4, 15#4)) := by decide
/-- V13. -/
theorem test_step_accDoneBad_end :
    (nextOf (step (holding (startOf 47 45 0x01#8) [0x00#8]))).map (fun t => (t.mode, t.count, t.busy, t.evtCode, t.evtInfo, t.tlmValid)) =
      some (.seek, 0#6, true, 3#3, 0b01#2, false) := by decide
/-- V14. -/
theorem test_step_accDoneBad_start :
    (nextOf (step (holding (startOf 47 24 0x75#8) [0x00#8]))).map (fun t => (t.buf, t.evtStrobe, t.evtCode, t.evtInfo)) = some ([], true, 3#3, 0b10#2) := by decide
/-- V16. -/
theorem test_step_illegalState :
    (nextOf (step { seeking [0x76#8] with count := 5#6 })).map (fun t => (t.fault, t.busy, t.evtCode)) = some (true, false, 5#3) := by decide
/-- V18. -/
theorem test_step_illegalState_full :
    (nextOf (step { holding [0x76#8] [0x76#8] with count := 48#6 })).map (fun t => (t.fault, t.busy, t.evtCode, t.count)) =
      some (true, false, 5#3, 48#6) := by decide
/-- R109, R217: the POLL edge consumes no byte. -/
theorem test_step_poll :
    (nextOf (step { State.reset with src := [0x76#8], inputs := [.edge 0b01#2] })).map (fun t => (t.busy, t.mode, t.src)) = some (true, .seek, [0x76#8]) := by decide
/-- V23. -/
theorem test_step_poll_fault :
    (nextOf (step { State.reset with fault := true, src := [0x76#8], inputs := [.edge 0b01#2] })).map (fun t => (t.busy, t.fault, t.src)) =
      some (false, true, [0x76#8]) := by decide
/-- V26, R214: reset in the middle of an invocation, with POLL beside it. -/
theorem test_step_reset :
    nextOf (step { holding [0x76#8] [0x05#8] with fault := true, tlmValid := true, tlm := some (telemetryOf (frameOf 0x05#8 0x00#8)), inputs := [.edge 0b11#2] }) =
      some { State.reset with src := [0x05#8] } := by decide
/-- V27. -/
theorem test_step_read :
    (nextOf (step { State.reset with tlmValid := true, tlm := some (telemetryOf (frameOf 0x05#8 0x00#8)), inputs := [.read 5#4] })).map (fun t => t.rdData) =
      some 3000#16 := by decide
/-- V29. -/
theorem test_step_read_noField :
    step { State.reset with tlmValid := true, tlm := some (telemetryOf (frameOf 0x05#8 0x00#8)), inputs := [.read 14#4] } =
      .refused (.noTelemetryField 14#4) := rfl

/-! ### Table words: decoded, and run by the very next step -/

/-- The instruction of a table word, if the step after `withFetchWord` on the reset state runs it: it answers what exec answers on the
state that the edge (or the read) hands to it. -/
def rowRuns (nbits w : Nat) (i : Instr) (handed : State) : Prop :=
  decodeTableWord nbits w = some i ∧ nextOf (step (State.reset.withFetchWord nbits w)) = nextOf (exec i handed) ∧
    (nextOf (exec i handed)).isSome = true

/-- The state the placed byte step is run on: the byte has left the source. -/
def handedByte (w : DecisionWord) : State := { State.reset.placeDecision w with src := [], inputs := [] }

theorem test_table_rows :
    rowRuns 24 0x00076 (.seekStart false false false) (handedByte 0x00076#18) ∧
    rowRuns 24 0x00000 (.seekDrop false false false 0x00#8) (handedByte 0x00000#18) ∧
    rowRuns 24 0x2BC00 (.accChk24Discard false false 0x00#8) (handedByte 0x2BC00#18) ∧
    rowRuns 24 0x2B800 (.accChk24Pass false false 0x00#8) (handedByte 0x2B800#18) ∧
    rowRuns 24 0x37B00 (.accDoneOk false 0x00#8) (handedByte 0x37B00#18) ∧
    rowRuns 24 0x37800 (.accDoneBad false false false 0x00#8) (handedByte 0x37800#18) ∧
    rowRuns 24 0x20800 (.accAppend 1#6 false false false 0x00#8) (handedByte 0x20800#18) ∧
    rowRuns 24 0x20000 (.illegalState true 0#6 false false false 0x00#8) (handedByte 0x20000#18) ∧
    rowRuns 8 0b01 .poll State.reset ∧
    rowRuns 8 0b10 (.reset false) State.reset := by
  unfold rowRuns; decide

/-- READ T0 (word 0) and READ T13 find no record after reset; that they complete is `test_read_free`. -/
theorem test_row_read : decodeTableWord 8 0 = some (.read 0#4) ∧ decodeTableWord 8 13 = some (.read 13#4) ∧ decodeTableWord 8 14 = none ∧
    step (State.reset.withFetchWord 8 0) = exec (.read 0#4) State.reset := ⟨rfl, rfl, rfl, rfl⟩
/-- V28: the value is free, the READ completes. -/
theorem test_read_free : exec (.read 0#4) State.reset = .next (State.reset.gotRead (Config.freeRdData 0) 1) := rfl
/-- Words outside every format are rejected. -/
theorem test_noFormat : decodeTableWord 24 0x40000 = none ∧ decodeTableWord 8 0x10 = none := by decide

/-! ### The ports (R78) -/

theorem test_port_srcRead : (holding [0x76#8] [0x01#8]).srcReadPort 0b00#2 = true ∧ (holding [0x76#8] [0x01#8]).srcReadPort 0b10#2 = false ∧
    (holding [0x76#8] []).srcReadPort 0b00#2 = false := by decide

/-! ### Witnesses: concrete states and operands that meet the hypotheses of each obligation -/

/-- A list of bytes held from a start marker on, its byte 21 not the end marker, meets the invariant as soon as its parts do. -/
theorem inv_holding (held src : List Byte) (hm : ModeCount (holding held src)) (hb : BufferHeld (holding held src))
    (hk : CandidateMarkers (holding held src)) : Inv (holding held src) where
  modeCount := hm
  buffer := hb
  markers := hk
  telemetry := ⟨rfl, fun _ h => by cases h⟩
  event := by simp [EventSound, holding]
  faultIdle h := by cases h
  faultEvent h := by simp [holding] at h

/-- The reset state with bytes in the source: no invocation is running. -/
def waiting (src : List Byte) : State := { State.reset with src := src }

theorem inv_waiting (src : List Byte) (_ : src ≠ []) : Inv (waiting src) where
  modeCount := by simp [ModeCount, waiting]
  buffer := ⟨rfl, fun i => by simp [waiting]⟩
  markers := by simp [CandidateMarkers, waiting]
  telemetry := ⟨rfl, fun _ h => by cases h⟩
  event := by simp [EventSound, waiting]
  faultIdle h := by cases h
  faultEvent h := by simp [waiting] at h

/-- The invariant does not read busy while no fault stands. -/
theorem inv_paused (s : State) (h : Inv s) : Inv (s.setBusy false) :=
  ⟨h.modeCount, h.buffer, h.markers, h.telemetry, h.event, fun _ => rfl, h.faultEvent⟩

/-- 23 bytes held with the end marker at index 21, as before the premature check. -/
def atCheck : State := holding (startOf 23 21 0x00#8) [0x01#8, 0x02#8]

theorem inv_atCheck : Inv atCheck := inv_holding _ _ ⟨by decide, by decide⟩ ⟨by decide, by decide⟩ ⟨by decide, by decide⟩

/-- 47 bytes of F held, and its last byte available. -/
def atDone : State := holding (startOf 47 0 0x76#8) [0x00#8]

theorem inv_atDone : Inv atDone := inv_holding _ _ ⟨by decide, by decide⟩ ⟨by decide, by decide⟩ ⟨by decide, by decide⟩

theorem witness_DecodeEncodeAgree :
    Instr.wf (.accAppend 1#6 true false true 0x00#8) = true ∧ Instr.wf (.accAppend 46#6 true false true 0xFF#8) = true ∧
    Instr.wf (.illegalState true 48#6 false false true 0x76#8) = true ∧ Instr.wf (.illegalState false 63#6 false false true 0x76#8) = true ∧
    Instr.wf (.read 13#4) = true := by decide

theorem witness_DecodedWordReencodes :
    decode (.host 0b11#2) = .ok (.reset true) ∧ decode (.byteStep 0x3FFFF#18) = .ok (.illegalState true 63#6 true true true 0xFF#8) ∧
    decode (.sink 0#4) = .ok (.read 0#4) := ⟨rfl, rfl, rfl⟩

theorem witness_EdgeRunsSelectedByteStep :
    let s := seeking [0x76#8, 0x01#8]
    let e := s.setInputs [.edge 0b01#2]
    s.busy = true ∧ s.fault = false ∧ s.src = 0x76#8 :: [0x01#8] ∧
      decode (.byteStep (s.decisionWord 0x76#8)) = .ok (.seekStart false false false) ∧ s.inputs = [] ∧
      decode (.byteStep (e.decisionWord 0x76#8)) = .ok (.seekStart false false false) ∧ e.inputs = .edge 0b01#2 :: [] ∧
      (0b01#2).getLsbD 1 = false := ⟨rfl, rfl, rfl, rfl, rfl, rfl, rfl, rfl⟩

theorem witness_EdgeRunsHostEvent :
    ((State.reset.setInputs [.edge 0b11#2]).inputs = .edge 0b11#2 :: [] ∧ decode (.host 0b11#2) = .ok (.reset true)) ∧
    ((State.reset.setInputs [.edge 0b01#2]).inputs = .edge 0b01#2 :: [] ∧ decode (.host 0b01#2) = .ok .poll ∧
      (State.reset.setInputs [.edge 0b01#2]).busy = false) := ⟨⟨rfl, rfl⟩, rfl, rfl, rfl⟩

theorem witness_SinkReadRunsRead :
    ((State.reset.setInputs [.read 13#4]).inputs = .read 13#4 :: [] ∧ decode (.sink 13#4) = .ok (.read 13#4)) ∧
    ((State.reset.setInputs [.read 14#4]).inputs = .read 14#4 :: [] ∧ 14 ≤ (14#4).toNat) := ⟨⟨rfl, rfl⟩, rfl, by decide⟩

theorem witness_PushAppendsToSource : ((seeking [0x01#8]).setInputs [.push 0x76#8]).inputs = .push 0x76#8 :: [] := rfl

theorem witness_QuietEdgesChangeOnlyBusy :
    (let s := (holding [0x76#8] []).setInputs [.edge 0b01#2];
      s.inputs = .edge 0b01#2 :: [] ∧ (0b01#2).getLsbD 1 = false ∧ s.busy = true ∧ s.src = []) ∧
    (let s := (waiting [0x76#8]).setInputs [.edge 0b00#2];
      s.inputs = .edge 0b00#2 :: [] ∧ (0b00#2).getLsbD 1 = false ∧ s.busy = false) ∧
    (let s := { waiting [0x76#8] with fault := true, inputs := [.edge 0b01#2] };
      s.inputs = .edge 0b01#2 :: [] ∧ s.busy = false ∧ s.fault = true) := by decide

theorem witness_SeekStartBeginsCandidate :
    (seeking []).mode = .seek ∧ (seeking []).count = 0#6 ∧ (seeking []).selected 0x76#8 = .seekStart false false false := by decide

theorem witness_SeekDropWritesNothing :
    let s := (seeking [0x77#8, 0x76#8]).setInputs [.edge 0b01#2]
    s.mode = .seek ∧ s.count = 0#6 ∧ (0x77#8 : Byte) ≠ 0x76#8 ∧ s.selected 0x77#8 = .seekDrop false false false 0x77#8 ∧
      s.busy = true ∧ s.fault = false ∧ s.inputs = .edge 0b01#2 :: [] ∧ (0b01#2).getLsbD 1 = false ∧ s.src = 0x77#8 :: [0x76#8] := by decide

theorem witness_AppendStoresAtCount : ∀ n ∈ [1, 22, 24, 46],
    let s := holding (startOf n 0 0x76#8) []
    s.mode = .acc ∧ 1 ≤ s.count.toNat ∧ s.count.toNat ≤ 46 ∧ s.count ≠ 23#6 ∧ s.count.toNat = n := by decide

theorem witness_Chk24PassStoresByte23 :
    let s := holding (startOf 23 21 0x01#8) []
    s.mode = .acc ∧ s.count = 23#6 ∧ s.buf.read 21 = some 0x01#8 ∧ (0x01#8 : Byte) ≠ 0x00#8 := by decide

theorem witness_Chk24DiscardEndsInvocation :
    let s := atCheck.setInputs [.edge 0b00#2]
    s.mode = .acc ∧ s.count = 23#6 ∧ s.buf.read 21 = some 0x00#8 ∧ s.busy = true ∧ s.fault = false ∧
      s.inputs = .edge 0b00#2 :: [] ∧ (0b00#2).getLsbD 1 = false ∧ s.src = 0x01#8 :: [0x02#8] := by decide

theorem witness_DoneOkCommitsFrame :
    let f := frameOf 0x05#8 0x00#8
    atDone.mode = .acc ∧ atDone.count = 47#6 ∧ (∀ k : Fin 47, atDone.buf.read k.val = some f[k.val]) ∧ f[24] = 0x76#8 ∧ f[45] = 0x00#8 := by decide

theorem witness_DoneBadDiscardsFrame :
    (let s := holding (startOf 47 45 0x01#8) [];
      s.mode = .acc ∧ s.count = 47#6 ∧ s.buf.read 24 = some 0x76#8 ∧ s.buf.read 45 = some 0x01#8) ∧
    (let s := holding (startOf 47 24 0x75#8) [];
      s.mode = .acc ∧ s.count = 47#6 ∧ s.buf.read 24 = some 0x75#8 ∧ s.buf.read 45 = some 0x00#8) := by decide

theorem witness_IllegalStateTakesFault :
    (let s := { seeking [0x76#8] with count := 5#6, inputs := [.edge 0b00#2] };
      s.mode = .seek ∧ s.count ≠ 0#6 ∧ s.busy = true ∧ s.fault = false ∧ s.inputs = .edge 0b00#2 :: [] ∧ s.src = 0x76#8 :: []) ∧
    (let s := { seeking [0x76#8] with mode := .acc, inputs := [.edge 0b00#2] };
      s.mode = .acc ∧ s.count = 0#6 ∧ s.busy = true ∧ s.fault = false ∧ s.inputs = .edge 0b00#2 :: [] ∧ s.src = 0x76#8 :: []) ∧
    (let s := { seeking [0x76#8] with mode := .acc, count := 48#6, inputs := [.edge 0b00#2] };
      s.mode = .acc ∧ 48 ≤ s.count.toNat ∧ s.busy = true ∧ s.fault = false ∧ s.inputs = .edge 0b00#2 :: [] ∧ s.src = 0x76#8 :: []) := by decide

theorem witness_PollStartsInvocation : (waiting [0x76#8]).busy = false ∧ (waiting [0x76#8]).fault = false := by decide

theorem witness_PollIgnoredWhileBusyOrFault : (seeking []).busy = true ∧ ({ waiting [0x01#8] with fault := true } : State).fault = true := by decide

theorem witness_ResetDuringInvocation :
    let s := (holding [0x76#8] [0x05#8]).setInputs [.edge 0b10#2]
    s.inputs = .edge 0b10#2 :: [] ∧ (0b10#2).getLsbD 1 = true ∧ s.busy = true := by decide

/-- A state that holds DECODE(F). -/
def decodedF : State := State.reset.commit (telemetryOf (frameOf 0x05#8 0x00#8))

theorem witness_ReadGivesField :
    decodedF.tlmValid = true ∧ decodedF.tlm = some (telemetryOf (frameOf 0x05#8 0x00#8)) ∧ (0#4).toNat ≤ 13 ∧ (13#4).toNat ≤ 13 ∧ 14 ≤ (14#4).toNat := by
  decide

theorem witness_ReadWithoutRecordIsFree : State.reset.tlmValid = false ∧ (0#4).toNat ≤ 13 ∧ (13#4).toNat ≤ 13 := by decide

theorem witness_SelectorsAndTexts :
    (frameOf 0x05#8 0x04#8)[26] = 5#8 ∧ (frameOf 0x05#8 0x04#8)[41] = 4#8 ∧ 8 < (frameOf 0x09#8 0x0B#8)[26].toNat ∧
    10 < (frameOf 0x09#8 0x0B#8)[41].toNat ∧ (frameOf 0x08#8 0x0A#8)[26].toNat ≤ 8 ∧ (frameOf 0x08#8 0x0A#8)[41].toNat ≤ 10 := by decide

theorem witness_ShortFrameWritesNothing : ((bytesOf 0x05#8 0x00#8).take 47).length ≠ 48 ∧ (bytesOf 0x05#8 0x00#8).length = 48 := by decide

/-- The step that completes F, used below as a witness of a commit. -/
theorem step_atDone : step atDone =
    .next (((atDone.setSrc []).commit (telemetryOf (frameOf 0x05#8 0x00#8))).clear.emit .frameOk 0#2) := by rfl

theorem witness_StepKeepsInvariant : Inv atDone ∧
    step atDone = .next (((atDone.setSrc []).commit (telemetryOf (frameOf 0x05#8 0x00#8))).clear.emit .frameOk 0#2) :=
  ⟨inv_atDone, step_atDone⟩

theorem witness_FaultUnreachable : Inv atCheck ∧ atCheck.fault = false ∧
    step atCheck = .next ((atCheck.setSrc [0x02#8]).clear.emit .prematureEof 0#2).endInvocation := ⟨inv_atCheck, rfl, rfl⟩

theorem witness_EveryStepGoesOn :
    (∀ idx is, State.reset.inputs = .read idx :: is → idx.toNat ≤ 13) ∧
    (∀ idx is, (State.reset.setInputs [.read 13#4]).inputs = .read idx :: is → idx.toNat ≤ 13) :=
  ⟨(by intro _ _ h; cases h), (by intro _ _ h; cases h; decide)⟩

theorem witness_TelemetryWrittenOnlyByCommitOrReset :
    step atDone = .next (((atDone.setSrc []).commit (telemetryOf (frameOf 0x05#8 0x00#8))).clear.emit .frameOk 0#2) ∧
    step (decodedF.setInputs [.edge 0b10#2]) = .next State.reset ∧ step decodedF = .next decodedF := ⟨step_atDone, rfl, rfl⟩

theorem witness_TlmValidLife :
    (TelemetrySound atDone ∧ atDone.tlmValid = false ∧
      step atDone = .next (((atDone.setSrc []).commit (telemetryOf (frameOf 0x05#8 0x00#8))).clear.emit .frameOk 0#2)) ∧
    (TelemetrySound (decodedF.setInputs [.edge 0b10#2]) ∧ (decodedF.setInputs [.edge 0b10#2]).tlmValid = true ∧
      step (decodedF.setInputs [.edge 0b10#2]) = .next State.reset ∧ State.reset.tlmValid = false) :=
  ⟨⟨inv_atDone.telemetry, rfl, step_atDone⟩, ⟨rfl, fun _ h => by cases h; exact ⟨rfl, rfl⟩⟩, rfl, rfl, rfl⟩

/-- A state that no run reaches: a fault stands, and an invocation with a byte is running. -/
def faulty : State := { seeking [0x76#8] with fault := true }

theorem witness_FaultIsSticky :
    (let s := { seeking [0x76#8] with count := 5#6 };
      s.fault = false ∧ step s = .next (s.setSrc []).raiseIllegalState) ∧
    (faulty.fault = true ∧ step (faulty.setInputs [.edge 0b10#2]) = .next (waiting [0x76#8])) ∧
    step faulty = .next faulty.endInvocation ∧
    step (faulty.setInputs [.push 0x05#8]) = .next (faulty.pushByte 0x05#8) := ⟨⟨rfl, rfl⟩, ⟨rfl, rfl⟩, rfl, rfl⟩

theorem witness_SourceReadInOrder :
    step (seeking [0x01#8, 0x02#8]) = .next (seeking [0x02#8]) ∧ step (waiting [0x01#8]) = .next (waiting [0x01#8]) ∧
    step ((waiting [0x01#8]).setInputs [.push 0x02#8]) = .next (waiting [0x01#8, 0x02#8]) := ⟨rfl, rfl, rfl⟩

theorem witness_SrcReadPortMarksConsumption :
    (let s := (seeking [0x01#8, 0x02#8]).setInputs [.edge 0b01#2];
      s.inputs = .edge 0b01#2 :: [] ∧ step s = .next (seeking [0x02#8])) ∧
    (let s := (seeking [0x01#8]).setInputs [.edge 0b10#2];
      s.inputs = .edge 0b10#2 :: [] ∧ step s = .next (waiting [0x01#8])) := ⟨⟨rfl, rfl⟩, rfl, rfl⟩

theorem witness_IdleClockKeepsEverything :
    let s := (holding [0x76#8] [0x05#8]).setBusy false
    s.inputs = [] ∧ s.busy = false ∧ s.count = 1#6 := by decide

theorem witness_PollRunsWholeInvocation :
    let s := (waiting [0x01#8, 0x76#8, 0x02#8]).setInputs [.edge 0b01#2]
    s.busy = false ∧ s.fault = false ∧ s.inputs = [.edge 0b01#2] := by decide

theorem witness_InvocationEnds : atDone.busy = true ∧ atDone.inputs = [] ∧ faulty.busy = true ∧ faulty.inputs = [] := by decide

theorem witness_NoiseLeavesNoTrace :
    Inv (waiting [0x00#8, 0xFF#8]) ∧ Idle (waiting [0x00#8, 0xFF#8]) ∧ (∀ b ∈ [0x00#8, 0xFF#8], b ≠ 0x76#8) ∧
      (waiting [0x00#8, 0xFF#8]).src = [0x00#8, 0xFF#8] := ⟨inv_waiting _ (by decide), ⟨rfl, rfl, rfl⟩, by decide, rfl⟩

theorem witness_ResynchronizesOnFrame :
    let f := frameOf 0x05#8 0x00#8
    let noise : List Byte := [0x00#8, 0xFF#8, 0x55#8, 0x00#8]
    let s := waiting (noise ++ f.toList ++ [0x76#8])
    Inv s ∧ Idle s ∧ (∀ b ∈ noise, b ≠ 0x76#8) ∧ WellFormedFrame f ∧ s.src = noise ++ f.toList ++ [0x76#8] :=
  ⟨inv_waiting _ (by decide), ⟨rfl, rfl, rfl⟩, by decide, ⟨by decide, by decide, by decide, by decide⟩, rfl⟩

theorem witness_PartialDelivery :
    let r1 := ((waiting [0x01#8]).setSrc [0x76#8, 0x16#8]).invocation
    let r2 := (r1.1.setSrc [0x0C#8]).invocation
    Inv (waiting [0x01#8]) ∧ (waiting [0x01#8]).busy = false ∧ (waiting [0x01#8]).fault = false ∧ (2#3, 0#2) ∉ r1.2 ∧ r2.1.count = 3#6 :=
  ⟨inv_waiting _ (by decide), rfl, rfl, by decide, by decide⟩

theorem witness_PrematureDiscardLeavesSource :
    let s := atCheck.setBusy false
    Inv s ∧ s.busy = false ∧ s.fault = false ∧ s.count = 23#6 ∧ s.buf.read 21 = some 0x00#8 ∧ s.src = 0x01#8 :: [0x02#8] :=
  ⟨inv_paused _ inv_atCheck, rfl, rfl, by decide, by decide, rfl⟩

theorem witness_PrematureFrameDiscarded :
    let l := startOf 24 21 0x00#8
    let s := waiting (l ++ [0x76#8])
    Inv s ∧ Idle s ∧ l.length = 24 ∧ l[0]? = some 0x76#8 ∧ l[21]? = some 0x00#8 ∧ s.src = l ++ [0x76#8] :=
  ⟨inv_waiting _ (by decide), ⟨rfl, rfl, rfl⟩, by decide, by decide, by decide, rfl⟩

/-- F with the byte at one index replaced, as a frame. -/
def frameWith (i : Fin 48) (b : Byte) : Frame := (frameOf 0x05#8 0x00#8).set i.val b i.isLt

theorem witness_MarkerFailureLeavesNoTrace :
    let f := frameWith 45 0x01#8
    let g := frameWith 24 0x75#8
    (Inv (waiting (f.toList ++ [0x76#8])) ∧ Idle (waiting (f.toList ++ [0x76#8])) ∧ f[0] = 0x76#8 ∧ f[21] ≠ 0x00#8 ∧ f[45] ≠ 0x00#8) ∧
    (Inv (waiting (g.toList ++ [0x76#8])) ∧ Idle (waiting (g.toList ++ [0x76#8])) ∧ g[0] = 0x76#8 ∧ g[21] ≠ 0x00#8 ∧ g[24] ≠ 0x76#8) :=
  ⟨⟨inv_waiting _ (by decide), ⟨rfl, rfl, rfl⟩, by decide, by decide, by decide⟩, inv_waiting _ (by decide), ⟨rfl, rfl, rfl⟩, by decide, by decide, by decide⟩

theorem witness_UninterpretedBytesDecideNothing :
    let f := frameOf 0x05#8 0x00#8
    let g := frameWith 1 0xFF#8
    Inv (waiting [0x01#8]) ∧ Idle (waiting [0x01#8]) ∧ f[0] = 0x76#8 ∧ (∀ k : Fin 48, k.val ∈ interpretedOffsets → f[k.val] = g[k.val]) ∧ f[1] ≠ g[1] :=
  ⟨inv_waiting _ (by decide), ⟨rfl, rfl, rfl⟩, by decide, by decide, by decide⟩

theorem witness_EmptyEntryReadRaises :
    ReadsEmptyEntry { seeking [0x76#8] with mode := .acc, count := 23#6 } ∧
    ReadsEmptyEntry { seeking [0x76#8] with mode := .acc, count := 47#6, buf := [(45, 0x00#8)] } ∧
    ReadsEmptyEntry { seeking [0x76#8] with mode := .acc, count := 47#6, buf := [(24, 0x76#8)] } ∧
    ReadsEmptyEntry { seeking [0x76#8] with mode := .acc, count := 47#6, buf := [(24, 0x76#8), (45, 0x00#8)] } ∧
    BufferHeld atDone :=
  ⟨⟨rfl, .inl ⟨rfl, rfl⟩⟩, ⟨rfl, .inr ⟨rfl, .inl rfl⟩⟩, ⟨rfl, .inr ⟨rfl, .inr (.inl rfl)⟩⟩,
    ⟨rfl, .inr ⟨rfl, .inr (.inr ⟨rfl, rfl, ⟨46, by decide⟩, rfl⟩)⟩⟩, inv_atDone.buffer⟩

/-- V21 and V29 as scripts: a POLL line, and a READ that ends the script. -/
theorem witness_ScriptRunsOnMachine :
    (waiting [0x01#8]).busy = false ∧ (waiting [0x01#8]).inputs = [] ∧
    (∃ t, runScript [.reset, .push [0x76#8, 0x22#8], .comment "text", .poll] (waiting [0x01#8]) = .next (t, [[]]) ∧ t.count = 2#6) ∧
    runScript [.read 14#4] (waiting [0x01#8]) = .refused (.noTelemetryField 14#4) := ⟨rfl, rfl, ⟨_, rfl, by decide⟩, rfl⟩

/-- As P3 of 95_test_vectors.md: a POLL line is at its end before the next line, and a premature discard is recorded and leaves the rest. -/
theorem test_script_discard :
    ∃ t, runScript [.push (startOf 24 21 0x00#8 ++ [0x05#8]), .poll, .poll] State.reset = .next (t, [[(2#3, 0#2)], []]) ∧
      t.src = [] ∧ t.busy = false := ⟨_, rfl, by decide, by decide⟩

theorem witness_EndOfRunStaysOver :
    EndOfRun (State.reset.setInputs [.read 14#4, .edge 0b00#2]) ∧ EndOfRun (State.reset.setInputs [.edge 0b00#2]) ∧
    step (State.reset.setInputs [.edge 0b00#2]) = .next State.reset ∧ ¬ EndOfRun (State.reset.setInputs [.edge 0b01#2]) :=
  ⟨⟨rfl, rfl, by decide⟩, ⟨rfl, rfl, by decide⟩, rfl, fun h => absurd (h.2.2 _ (List.mem_singleton.mpr rfl)) (by decide)⟩

/-- R24 at the premature check, with the step of the machine. -/
theorem test_step_accChk24Pass_empty :
    (nextOf (step { seeking [0x05#8] with mode := .acc, count := 23#6 })).map (fun t => (t.fault, t.busy, t.count, t.evtCode)) =
      some (true, false, 23#6, 5#3) := by decide

end Sys2Proof.Tests
end

section
/-! Progress of the machine (R11, R187): every clock edge, PUSH, and READ of a field answers a next state. -/

namespace Sys2Proof.Machine

/-- A READ of a field T0 to T13 always completes (R118), with the record's value or a free one. -/
theorem exec_read_next (idx : BitVec 4) (s : State) (hi : idx.toNat ≤ 13) :
    ∃ v n, exec (.read idx) s = .next (s.gotRead v n) := by
  cases hv : s.tlmValid && s.tlm.isSome with
  | false => exact ⟨_, _, exec_read_free idx s hi hv⟩
  | true =>
    obtain ⟨hvalid, hsome⟩ := Bool.and_eq_true_iff.mp hv
    obtain ⟨r, hr⟩ := Option.isSome_iff_exists.mp hsome
    obtain ⟨v, hf⟩ := r.field_isSome idx.toNat hi
    exact ⟨v, _, exec_read_record idx s r v hi hvalid hr hf⟩

theorem State.sinkRead_of_field (idx : BitVec 4) (s : State) (hi : idx.toNat ≤ 13) :
    s.sinkRead idx = exec (.read idx) s := by
  simp [State.sinkRead, decodeSink, hi]

/-- One input answers a next state, unless it is a READ of no field. -/
theorem State.runInput_next (x : Input) (s : State) (h : ∀ idx, x = .read idx → idx.toNat ≤ 13) :
    ∃ t, s.runInput x = .next t := by
  cases x with
  | push b => exact ⟨_, rfl⟩
  | edge h0 =>
    obtain ⟨t, ht, -⟩ := s.clockEdge_total h0
    exact ⟨t, ht⟩
  | read idx =>
    have hi := h idx rfl
    obtain ⟨v, n, hx⟩ := exec_read_next idx s hi
    exact ⟨_, (s.sinkRead_of_field idx hi).trans hx⟩

/-- Settles O29: the empty schedule is a clock edge, and a scheduled input is one that goes on. -/
theorem everyStepGoesOn : Obligations.EveryStepGoesOn := by
  intro s h
  unfold step State.takeInput
  split
  · obtain ⟨t, ht, -⟩ := s.clockEdge_total 0b00#2
    exact ⟨t, ht⟩
  · next x is hi => exact (s.setInputs is).runInput_next x fun idx hx => h idx is (hx ▸ hi)

end Sys2Proof.Machine
end

section
/-! A candidate held byte for byte: the buffer that holds a list of bytes from index 0 on, and the Accumulating state over it. -/

namespace Sys2Proof.Machine

/-- The buffer that holds these bytes at `start`, `start + 1`, ... and nothing else. -/
def Memory.ofBytesFrom : Nat → List Byte → Memory
  | _, [] => []
  | start, b :: l => (start, b) :: Memory.ofBytesFrom (start + 1) l

theorem Memory.ofBytesFrom_read (l : List Byte) (start i : Nat) :
    (Memory.ofBytesFrom start l).read (start + i) = l[i]? := by
  induction l generalizing start i with
  | nil => rfl
  | cons b l ih =>
    cases i with
    | zero => simp [Memory.ofBytesFrom, Memory.read]
    | succ i => simpa [Memory.ofBytesFrom, Memory.read, Nat.add_assoc, Nat.add_comm 1 i] using ih (start + 1) i

theorem Memory.ofBytesFrom_write (l : List Byte) (start : Nat) (b : Byte) :
    (Memory.ofBytesFrom start l).write (start + l.length) b = Memory.ofBytesFrom start (l ++ [b]) := by
  induction l generalizing start with
  | nil => rfl
  | cons c l ih =>
    have h := ih (start + 1)
    rw [Nat.add_assoc, Nat.add_comm 1] at h
    simp [Memory.ofBytesFrom, Memory.write, h]

/-- The Synchronizer in Accumulating with exactly these bytes held, in order (R23), and nothing reported. -/
def State.holding (l : List Byte) (s : State) : State :=
  { s.emitNone with mode := .acc, count := BitVec.ofNat 6 l.length, buf := Memory.ofBytesFrom 0 l }

variable (s : State)

@[simp] theorem State.holding_mode (l : List Byte) : (s.holding l).mode = .acc := rfl
@[simp] theorem State.holding_fault (l : List Byte) : (s.holding l).fault = s.fault := rfl
@[simp] theorem State.holding_evtStrobe (l : List Byte) : (s.holding l).evtStrobe = false := rfl

theorem State.holding_count_toNat (l : List Byte) (h : l.length ≤ 47) : (s.holding l).count.toNat = l.length :=
  Nat.mod_eq_of_lt (show l.length < 2 ^ 6 by omega)

@[simp] theorem State.holding_read (l : List Byte) (i : Nat) : (s.holding l).buf.read i = l[i]? := by
  rw [← Memory.ofBytesFrom_read l 0 i, Nat.zero_add]
  rfl

/-- Appending at the fill count holds one byte more (R102). -/
theorem State.holding_appended (l : List Byte) (b : Byte) :
    (s.holding l).appended l.length b = s.holding (l ++ [b]) := by
  have h := Memory.ofBytesFrom_write l 0 b
  rw [Nat.zero_add] at h
  simp [State.holding, State.appended, State.emitNone, State.emit, h]

/-- From a cleared Synchronizer the start marker is the first byte held (R100). -/
theorem State.clear_seekStart (b : Byte) : (s.clear.appended 0 b).setMode .acc = s.holding [b] := rfl

/-- What a report leaves does not depend on the candidate it ends (R105). -/
theorem State.holding_commit_clear (l : List Byte) (r : Telemetry) (e : Event) (i : BitVec 2) :
    ((s.holding l).commit r).clear.emit e i = (s.commit r).clear.emit e i := rfl

/-- The 47 bytes held and the 48th are the completed frame (R105). -/
theorem State.holding_completedFrame (l : List Byte) (b : Byte) (h : l.length = 47) :
    (s.holding l).completedFrame b = some (l ++ [b]) := by
  obtain ⟨l', hrange, hlen, hread⟩ := Memory.readRange_spec (s.holding l).buf 47 0 (by simp [h])
  have hl : l' = l := by
    refine List.ext_getElem (hlen.trans h.symm) fun i h1 h2 => ?_
    have := hread i h1
    rw [Nat.zero_add, State.holding_read, List.getElem?_eq_getElem h2] at this
    exact (Option.some.inj this).symm
  simp [State.completedFrame, hrange, hl]

/-- In the invariant a seeking Synchronizer is as CLEAR leaves it, with an empty buffer (R22, R23, R108). -/
theorem State.clear_eq_self (hi : Safety.Inv s) (hm : s.mode = .seek) : s.clear = s := by
  have hc : s.count = 0#6 := hi.modeCount.1.mp hm
  have hb : s.buf = [] := by
    obtain ⟨hwf, hheld⟩ := hi.buffer
    cases hbuf : s.buf with
    | nil => rfl
    | cons c m =>
      obtain ⟨k, v⟩ := c
      have hk : s.buf.read k = some v := by simp [hbuf, Memory.read]
      have hlt : k < 48 := (Memory.read_of_wfFrom s.buf 0 k hwf v hk).2
      have := hheld ⟨k, hlt⟩
      simp [hk, hc] at this
  unfold State.clear
  rw [← hm, ← hc, ← hb]

end Sys2Proof.Machine
end

section
/-! What the loop of R109 does with noise, with the bytes of a candidate, and with a well-formed frame. -/

namespace Sys2Proof.Machine

variable (s : State)

/-! ### One turn, its byte already taken -/

/-- A turn that reports nothing and does not end the loop hands on the state the byte step leaves. -/
theorem State.drain_cons_quiet (t : State) (b : Byte) (rest : List Byte) (h : byteStep b s = (t, false)) (hf : t.fault = false)
    (he : t.evtStrobe = false) : State.drain (b :: rest) s = State.drain rest t := by
  rw [State.drain_quiet s (t.setSrc rest) b rest (by rw [byteStep_setSrc, h]) hf he, State.drain_setSrc]

/-- A turn that reports and does not end the loop records its event first. -/
theorem State.drain_cons_report (t : State) (b : Byte) (rest : List Byte) (h : byteStep b s = (t, false)) (hf : t.fault = false)
    (he : t.evtStrobe = true) :
    State.drain (b :: rest) s = ((State.drain rest t).1, (t.evtCode, t.evtInfo) :: (State.drain rest t).2) := by
  simp [State.drain_cons, byteStep_setSrc, h, hf, he, State.drain_setSrc]

/-- The loop does not read the event the state drives. -/
theorem State.drain_emit (l : List Byte) (e : Event) (i : BitVec 2) : State.drain l (s.emit e i) = State.drain l s := by
  rw [← State.drain_emitNone l (s.emit e i), ← State.drain_emitNone l s]
  rfl

/-! ### Noise -/

/-- Bytes without the start marker leave a cleared Synchronizer as it is (R101). -/
theorem State.drain_noise (noise rest : List Byte) (hf : s.fault = false) (hn : ∀ b ∈ noise, b ≠ 0x76#8) :
    State.drain (noise ++ rest) s.clear = State.drain rest s.clear := by
  induction noise with
  | nil => rfl
  | cons b noise ih =>
    obtain ⟨hb, hrest⟩ := List.forall_mem_cons.mp hn
    rw [List.cons_append, State.drain_cons_quiet _ _ _ _ (byteStep_drop s.clear b rfl rfl hb) hf rfl, State.drain_emitNone, ih hrest]

/-! ### The bytes of a candidate -/

/-- A byte before the 48th is held, unless the premature check meets the end marker (R102, R103). -/
theorem byteStep_holding (l : List Byte) (b : Byte) (h1 : 1 ≤ l.length) (h46 : l.length ≤ 46)
    (hz : l.length = 23 → l[21]? ≠ some 0#8) : byteStep b (s.holding l) = (s.holding (l ++ [b]), false) := by
  have hc := s.holding_count_toNat l (by omega)
  rw [← s.holding_appended l b]
  by_cases h23 : l.length = 23
  · have hv : (s.holding l).buf.read 21 = some l[21] := by simp [h23]
    have hne : l[21] ≠ 0#8 := by simpa [h23] using hz h23
    rw [h23] at hc ⊢
    exact byteStep_pass _ b _ rfl hc hv hne
  · rw [byteStep_append _ b rfl (by omega) (by omega) (by omega), hc]

/-- The loop holds the bytes of a candidate one after the other, up to 47 of them, when byte 21 is not the end marker. -/
theorem State.drain_holding (l l' rest : List Byte) (hf : s.fault = false) (h1 : 1 ≤ l.length) (h47 : (l ++ l').length ≤ 47)
    (hz : (l ++ l')[21]? ≠ some 0#8) : State.drain (l' ++ rest) (s.holding l) = State.drain rest (s.holding (l ++ l')) := by
  induction l' generalizing l with
  | nil => simp
  | cons b l' ih =>
    have happ : l ++ b :: l' = (l ++ [b]) ++ l' := by simp
    have hlen : l.length + (l'.length + 1) ≤ 47 := by simpa using h47
    have hbyte : byteStep b (s.holding l) = (s.holding (l ++ [b]), false) := by
      refine byteStep_holding s l b h1 (by omega) fun h23 => ?_
      rwa [List.getElem?_append_left (by omega)] at hz
    rw [List.cons_append, State.drain_cons_quiet _ _ b _ hbyte hf rfl, happ]
    rw [happ] at h47 hz
    exact ih (l ++ [b]) (by simp) h47 hz

/-- A candidate of up to 47 bytes that meets a cleared Synchronizer is held whole (R100, R102, R103). -/
theorem State.drain_candidate (cand rest : List Byte) (hf : s.fault = false) (h47 : cand.length ≤ 47) (h0 : cand[0]? = some 0x76#8)
    (hz : cand[21]? ≠ some 0#8) : State.drain (cand ++ rest) s.clear = State.drain rest (s.holding cand) := by
  obtain _ | ⟨b, l⟩ := cand
  · simp at h0
  · obtain rfl : b = 0x76#8 := by simpa using h0
    rw [List.cons_append, State.drain_cons_quiet _ _ _ _ (byteStep_start s.clear rfl rfl) hf rfl, State.clear_seekStart]
    exact s.drain_holding [0x76#8] l rest hf (Nat.le_refl 1) h47 hz

/-! ### A well-formed frame -/

/-- The bytes of a frame pass the length check of DECODE as that frame (R158). -/
theorem frameOfBytes_toList (f : Frame) : frameOfBytes f.toList = some f := by
  obtain ⟨g, hg, hl⟩ := frameOfBytes_of_length f.toList (by simp)
  rw [hg, Vector.toList_inj.mp hl]

/-- A frame is the 47 bytes its candidate holds and the byte that completes it. -/
theorem frame_toList_eq (f : Frame) : f.toList = f.toList.take 47 ++ [f[47]] := by
  calc f.toList = f.toList.take (47 + 1) := (List.take_of_length_le (Vector.length_toList).le).symm
    _ = f.toList.take 47 ++ [f[47]] := by simp [List.take_add_one]

/-- R105 as a case of the byte step: both completion markers hold and the 47 entries and b are a frame. -/
theorem byteStep_doneOk (b : Byte) (f : Frame) (hm : s.mode = .acc) (hc : s.count.toNat = 47) (ha : s.buf.read 24 = some 0x76#8)
    (he : s.buf.read 45 = some 0x00#8) (hf : s.completedFrame b = some f.toList) :
    byteStep b s = ((s.commit (telemetryOf f)).clear.emit .frameOk 0#2, false) := by
  have hd : s.decodeFrame f.toList = s.commit (telemetryOf f) := s.decodeFrame_of_frame _ f (frameOfBytes_toList f)
  simp [byteStep, hm, hc, Config.eofIdx, Config.alignIdx, ha, he, hf, hd]

/-- A well-formed frame that meets a cleared Synchronizer is committed and reported, and the loop goes on behind it as from a cleared
Synchronizer that holds its record (R105, R112). -/
theorem State.drain_frame (f : Frame) (rest : List Byte) (hf : s.fault = false) (hw : Safety.WellFormedFrame f) :
    State.drain (f.toList ++ rest) s.clear =
      ((State.drain rest (s.commit (telemetryOf f)).clear).1,
        (1#3, 0#2) :: (State.drain rest (s.commit (telemetryOf f)).clear).2) := by
  obtain ⟨h0, h21, h24, h45⟩ := hw
  generalize hheld : f.toList.take 47 = held
  have hlen : held.length = 47 := by simp [← hheld]
  have hget (i : Nat) (hi : i < 47) : held[i]? = some f[i] := by simp [← hheld, hi]
  have hsplit : f.toList = held ++ [f[47]] := hheld ▸ frame_toList_eq f
  have hlast : byteStep f[47] (s.holding held) = ((s.commit (telemetryOf f)).clear.emit .frameOk 0#2, false) := by
    have hcount : (s.holding held).count.toNat = 47 := by rw [s.holding_count_toNat _ (by omega), hlen]
    have hframe : (s.holding held).completedFrame f[47] = some f.toList := by rw [s.holding_completedFrame _ _ hlen, hsplit]
    rw [byteStep_doneOk _ _ f rfl hcount (by simp [hget, h24]) (by simp [hget, h45]) hframe, State.holding_commit_clear]
  calc State.drain (f.toList ++ rest) s.clear
      = State.drain (held ++ f[47] :: rest) s.clear := by rw [hsplit, List.append_assoc, List.singleton_append]
    _ = State.drain (f[47] :: rest) (s.holding held) :=
        s.drain_candidate held _ hf (by omega) (by simp [hget, h0]) (by simpa [hget] using h21)
    _ = _ := by
        rw [State.drain_cons_report _ _ _ _ hlast hf rfl, State.drain_emit]
        rfl

/-- POLL where it has an effect is the loop over the bytes available (R109). -/
theorem State.invocation_start (hb : s.busy = false) (hf : s.fault = false) :
    s.invocation = State.drain s.src (s.setBusy true) := by
  simp [State.invocation, hb, hf]

/-- An invocation from a seeking state of the invariant is the loop from a cleared Synchronizer (R109). -/
theorem State.invocation_seek (hi : Safety.Inv s) (hidle : Safety.Idle s) : s.invocation = State.drain s.src (s.setBusy true).clear := by
  obtain ⟨hm, hb, hf⟩ := hidle
  have hclear : (s.setBusy true).clear = s.setBusy true := congrArg (State.setBusy true) (s.clear_eq_self hi hm)
  rw [s.invocation_start hb hf, hclear]

/-- The invocation over the bytes behind a frame whose record was committed to an idle seeking state. -/
theorem State.invocation_committed (r : Telemetry) (rest : List Byte) (hi : Safety.Inv s) (hidle : Safety.Idle s) :
    ((s.commit r).setSrc rest).invocation = State.drain rest ((s.setBusy true).commit r).clear := by
  obtain ⟨hm, hb, hf⟩ := hidle
  have hclear : ((s.setBusy true).commit r).clear = (s.setBusy true).commit r :=
    congrArg (fun t => (t.setBusy true).commit r) (s.clear_eq_self hi hm)
  rw [hclear, ((s.commit r).setSrc rest).invocation_start hb hf]
  exact State.drain_setSrc rest rest ((s.setBusy true).commit r)

/-- Settles O40: the noise leaves the cleared Synchronizer as it is, and the frame then meets it as it would alone. -/
theorem resynchronizesOnFrame : Obligations.ResynchronizesOnFrame := by
  intro s noise rest f hi hidle hn hw hs
  have hf : (s.setBusy true).fault = false := hidle.2.2
  have hloop : s.invocation = State.drain (f.toList ++ rest) (s.setBusy true).clear := by
    rw [s.invocation_seek hi hidle, hs, List.append_assoc, State.drain_noise _ _ _ hf hn]
  rw [s.invocation_committed (telemetryOf f) rest hi hidle, hloop, State.drain_frame _ f rest hf hw]
  exact ⟨rfl, rfl⟩

end Sys2Proof.Machine
end

section
/-! The invariant, update by update: which updates of the state keep it, and so every byte step, every edge and every step. -/

namespace Sys2Proof.Safety

open Sys2Proof.Machine

variable {s t : State}

/-- Settles O26: an empty buffer and the count 0, no record, no event, no fault (R34). -/
theorem resetMeetsInvariant : Obligations.ResetMeetsInvariant where
  modeCount := by simp [ModeCount]
  buffer := ⟨Memory.wf_nil, by simp⟩
  markers := by simp [CandidateMarkers]
  telemetry := ⟨rfl, by simp⟩
  event := by simp [EventSound]
  faultIdle _ := rfl
  faultEvent := by simp

/-! ### What is not the block's, and busy -/

theorem Inv.setInputs (h : Inv s) (is : List Input) : Inv (s.setInputs is) :=
  ⟨h.modeCount, h.buffer, h.markers, h.telemetry, h.event, h.faultIdle, h.faultEvent⟩

theorem Inv.setSrc (h : Inv s) (l : List Byte) : Inv (s.setSrc l) :=
  ⟨h.modeCount, h.buffer, h.markers, h.telemetry, h.event, h.faultIdle, h.faultEvent⟩

theorem Inv.gotRead (h : Inv s) (v : Half) (n : Nat) : Inv (s.gotRead v n) :=
  ⟨h.modeCount, h.buffer, h.markers, h.telemetry, h.event, h.faultIdle, h.faultEvent⟩

theorem Inv.setBusy (h : Inv s) (x : Bool) (hx : s.fault = true → x = false) : Inv (s.setBusy x) :=
  ⟨h.modeCount, h.buffer, h.markers, h.telemetry, h.event, hx, h.faultEvent⟩

theorem Inv.endInvocation (h : Inv s) : Inv s.endInvocation := h.setBusy false fun _ => rfl

/-- RESET leaves the block's part of the reset state (R117). -/
theorem inv_resetBlock (s : State) : Inv s.resetBlock :=
  ((resetMeetsInvariant.setSrc s.src).setInputs s.inputs).gotRead s.rdData s.freeDraws

/-! ### The event output -/

/-- Every event but SHORT_FRAME may be driven, with an info that is not 0 exactly for MARKER_FAIL (R79, R80, R82). -/
theorem eventSound_emit (e : Event) (i : BitVec 2) (s : State) (he : e ≠ .shortFrame) (hi : i ≠ 0#2 ↔ e = .markerFail) :
    EventSound (s.emit e i) := by
  cases e <;> simp_all [EventSound, Event.code]

theorem eq_illegalState_of_code (e : Event) : e.code = 5#3 → e = .illegalState := by
  cases e <;> decide

/-- An event other than ILLEGAL_STATE is driven without regard to the fault. -/
theorem Inv.emit (h : Inv s) (e : Event) (i : BitVec 2) (he : e ≠ .shortFrame ∧ e ≠ .illegalState) (hi : i ≠ 0#2 ↔ e = .markerFail) :
    Inv (s.emit e i) where
  modeCount := h.modeCount
  buffer := h.buffer
  markers := h.markers
  telemetry := h.telemetry
  event := eventSound_emit e i s he.1 hi
  faultIdle := h.faultIdle
  faultEvent hc := absurd (eq_illegalState_of_code e hc) he.2

theorem Inv.emitNone (h : Inv s) : Inv s.emitNone :=
  h.emit .none 0#2 (by decide) (by decide)

/-- IllegalState raises the fault with its event and ends the invocation (R186). -/
theorem Inv.raiseIllegalState (h : Inv s) : Inv s.raiseIllegalState where
  modeCount := h.modeCount
  buffer := h.buffer
  markers := h.markers
  telemetry := h.telemetry
  event := eventSound_emit .illegalState 0#2 s (by decide) (by decide)
  faultIdle _ := rfl
  faultEvent _ := rfl

theorem ofBool_append_eq_zero : ∀ x y : Bool, BitVec.ofBool x ++ BitVec.ofBool y = 0#2 ↔ x = false ∧ y = false := by decide

/-- The info of a marker failure is 0 only where both markers hold (R80). -/
theorem markerInfo_eq_zero (a e : Byte) : markerInfo a e = 0#2 ↔ a = Config.startMarker ∧ e = Config.eofMarker := by
  rw [markerInfo, ofBool_append_eq_zero, bne_eq_false_iff_eq, bne_eq_false_iff_eq]

/-! ### The Synchronizer and the Decoder -/

theorem Inv.clear (h : Inv s) : Inv s.clear where
  modeCount := resetMeetsInvariant.modeCount
  buffer := resetMeetsInvariant.buffer
  markers := resetMeetsInvariant.markers
  telemetry := h.telemetry
  event := h.event
  faultIdle := h.faultIdle
  faultEvent := h.faultEvent

/-- The selectors of a committed record are those of its codes (R155, R156). -/
theorem Inv.commit (h : Inv s) (f : Frame) : Inv (s.commit (telemetryOf f)) where
  modeCount := h.modeCount
  buffer := h.buffer
  markers := h.markers
  telemetry := ⟨rfl, fun _ hr => Option.some.inj hr ▸ ⟨rfl, rfl⟩⟩
  event := h.event
  faultIdle := h.faultIdle
  faultEvent := h.faultEvent

theorem appended_count_toNat (s : State) (n : Nat) (b : Byte) (hn : n ≤ 46) : (s.appended n b).count.toNat = n + 1 :=
  Nat.mod_eq_of_lt (show n + 1 < 2 ^ 6 by omega)

/-- A byte stored at the fill count extends the held entries by one (R23). -/
theorem bufferHeld_appended (h : BufferHeld s) (b : Byte) (hn : s.count.toNat ≤ 46) : BufferHeld (s.appended s.count.toNat b) := by
  obtain ⟨hwf, hheld⟩ := h
  refine ⟨Memory.wf_write _ _ _ hwf (by omega), fun i => ?_⟩
  rw [appended_count_toNat s _ b hn, State.appended_buf, Memory.read_write]
  by_cases hi : i.val = s.count.toNat
  · simp [hi]
  · rw [if_neg hi, hheld i, decide_eq_decide]
    omega

/-- The first byte of a candidate is the start marker, and the 24th is stored only over a byte 21 that is not the end marker. -/
theorem candidateMarkers_appended (h : CandidateMarkers s) (b : Byte) (hn : s.count.toNat ≤ 46)
    (h0 : s.count.toNat = 0 → b = Config.startMarker) (h23 : s.count.toNat = 23 → s.buf.read 21 ≠ some Config.eofMarker) :
    CandidateMarkers (s.appended s.count.toNat b) := by
  obtain ⟨hstart, hpremature⟩ := h
  rw [CandidateMarkers, appended_count_toNat s _ b hn, State.appended_buf, Memory.read_write, Memory.read_write]
  constructor
  · intro _
    by_cases hc : s.count.toNat = 0
    · simp [hc, h0 hc]
    · rw [if_neg (Ne.symm hc), hstart (by omega)]
  · intro hc
    rw [if_neg (by simp only [Config.prematureIdx]; omega)]
    by_cases hc23 : s.count.toNat = 23
    · exact h23 hc23
    · exact hpremature (by omega)

/-- What every appending action leaves: the byte stored at the fill count, Accumulating (R100, R102, R103). -/
theorem Inv.appended (h : Inv s) (b : Byte) (hn : s.count.toNat ≤ 46) (h0 : s.count.toNat = 0 → b = Config.startMarker)
    (h23 : s.count.toNat = 23 → s.buf.read 21 ≠ some Config.eofMarker) : Inv ((s.appended s.count.toNat b).setMode .acc) where
  modeCount := by
    have hc := appended_count_toNat s _ b hn
    have hne : (s.appended s.count.toNat b).count ≠ 0#6 := fun h => by rw [h] at hc; exact absurd hc.symm (Nat.succ_ne_zero _)
    exact ⟨iff_of_false nofun hne, by rw [State.setMode_count, hc]; omega⟩
  buffer := bufferHeld_appended h.buffer b hn
  markers := candidateMarkers_appended h.markers b hn h0 h23
  telemetry := h.telemetry
  event := h.emitNone.event
  faultIdle := h.faultIdle
  faultEvent := h.emitNone.faultEvent

/-- The same where the Synchronizer is Accumulating already, n being the fill count. -/
theorem Inv.appended_acc (h : Inv s) (n : Nat) (b : Byte) (hm : s.mode = .acc) (hc : s.count.toNat = n) (h1 : 1 ≤ n) (hn : n ≤ 46)
    (h23 : n = 23 → s.buf.read 21 ≠ some Config.eofMarker) : Inv (s.appended n b) := by
  subst hc
  have hmode : (s.appended s.count.toNat b).setMode .acc = s.appended s.count.toNat b := by rw [← hm]; rfl
  exact hmode ▸ h.appended b hn (by omega) h23

/-! ### Byte steps, edges and steps -/

/-- Every selected byte step keeps the invariant (R100 to R107). -/
theorem Inv.byteStepResult {b : Byte} (h : Inv s) (hr : ByteStepResult s b t) : Inv t := by
  cases hr with
  | seekStart _ hc hb =>
    have hn : s.count.toNat = 0 := by rw [hc]; rfl
    exact hn ▸ h.appended b (by omega) (fun _ => hb) (by omega)
  | seekDrop => exact h.emitNone
  | discard => exact (h.clear.emit .prematureEof 0#2 (by decide) (by decide)).endInvocation
  | pass v hm hc hv hz => exact h.appended_acc 23 b hm (by rw [hc]; rfl) (by omega) (by omega) fun _ => by simpa [hv] using hz
  | doneOk f => exact (h.commit f).clear.emit .frameOk 0#2 (by decide) (by decide)
  | doneBad a e _ _ _ _ hn =>
    have hinfo : markerInfo a e ≠ 0#2 := hn ∘ (markerInfo_eq_zero a e).mp
    exact h.clear.emit .markerFail _ (by decide) (iff_of_true hinfo rfl)
  | append hm h1 h46 h23 =>
    exact h.appended_acc _ b hm rfl h1 h46 fun hc => absurd (BitVec.eq_of_toNat_eq hc) h23
  | raise => exact h.raiseIllegalState

/-- Every clock edge keeps the invariant (R217). -/
theorem Inv.edgeResult {x : BitVec 2} (h : Inv s) (hr : EdgeResult x s t) : Inv t := by
  cases hr with
  | reset => exact inv_resetBlock s
  | poll _ _ hf => exact h.emitNone.setBusy true fun hf' => by simp [hf] at hf'
  | pollIgnored => exact h.emitNone
  | idle => exact h.emitNone
  | ends => exact h.emitNone.endInvocation
  | byte b rest _ _ _ _ _ _ ht => exact (h.emitNone.setSrc rest).byteStepResult ht

/-- Settles O27: a PUSH and a READ do not touch what the invariant speaks of, and every edge keeps it. -/
theorem stepKeepsInvariant : Obligations.StepKeepsInvariant := by
  intro s t h hstep
  obtain ⟨b, is, -, rfl⟩ | ⟨idx, is, v, n, -, -, rfl⟩ | ⟨x, is, -, hr⟩ := step_cases s t hstep
  · exact (h.setInputs is).setSrc _
  · exact (h.setInputs is).gotRead v n
  · exact (h.setInputs is).edgeResult hr

end Sys2Proof.Safety
end

section
/-! The life of the record and of the fault over a step, RESET, and reads of an entry that holds no value. -/

namespace Sys2Proof.Machine

open Sys2Proof.Safety

variable {s t : State}

/-- Settles O19: `State.resetBlock` is R34 field by field. -/
theorem resetSetsEveryRegister : Obligations.ResetSetsEveryRegister := by
  intro s withPoll
  exact ⟨s.resetBlock, exec_reset withPoll s, ⟨rfl, rfl, Memory.read_nil⟩, rfl, rfl, rfl, rfl, rfl, ⟨rfl, rfl, rfl⟩,
    ⟨rfl, rfl, rfl, rfl⟩, rfl⟩

/-! ### The bytes of a completed frame -/

/-- A range that was read holds exactly the bytes read. -/
theorem Memory.read_of_readRange (m : Memory) (n start : Nat) (l : List Byte) (h : m.readRange start n = some l) (i : Nat) (hi : i < n) :
    m.read (start + i) = l[i]? := by
  induction n generalizing start l i with
  | zero => omega
  | succ n ih =>
    simp only [Memory.readRange] at h
    split at h
    · next v vs hv hvs =>
      cases h
      cases i with
      | zero => simpa using hv
      | succ i => simpa [Nat.add_assoc, Nat.add_comm 1 i] using ih (start + 1) vs hvs i (by omega)
    · cases h

/-- A completed frame is the byte just read behind the 47 bytes held (R105). -/
theorem State.completedFrame_bytes (s : State) (b : Byte) (f : Frame) (h : s.completedFrame b = some f.toList) :
    f[47] = b ∧ ∀ k : Fin 47, s.buf.read k.val = some f[k.val] := by
  simp only [State.completedFrame, Option.map_eq_some_iff] at h
  obtain ⟨l, hrange, hl⟩ := h
  rw [frame_toList_eq f] at hl
  obtain ⟨hheld, hlast⟩ := List.append_inj' hl rfl
  refine ⟨(List.singleton_inj.mp hlast).symm, fun k => ?_⟩
  have hread := s.buf.read_of_readRange 47 0 l hrange k.val k.isLt
  rw [Nat.zero_add] at hread
  simp [hread, hheld]

/-! ### Reads of an entry that holds no value -/

/-- A byte step that reads an empty entry raises IllegalState: every other result rests on the entries it has read (R24). -/
theorem ByteStepResult.eq_raise_of_readsEmptyEntry {b : Byte} (h : ByteStepResult s b t) (he : ReadsEmptyEntry s) :
    t = s.raiseIllegalState := by
  obtain ⟨hm, he⟩ := he
  cases h with
  | seekStart hseek => simp [hseek] at hm
  | seekDrop hseek => simp [hseek] at hm
  | discard _ hc hz => simp [hc, hz, Config.prematureIdx] at he
  | pass v _ hc hv => simp [hc, hv, Config.prematureIdx] at he
  | doneOk f _ hc ha hz hf =>
    have hheld := (s.completedFrame_bytes b f hf).2
    simp [hc, ha, hz, hheld, Config.alignIdx, Config.eofIdx] at he
  | doneBad a e _ hc ha hz hn =>
    obtain ⟨h23, -⟩ | ⟨-, h24 | h45 | ⟨h24, h45, -⟩⟩ := he
    · simp [hc] at h23
    · cases ha.symm.trans h24
    · cases hz.symm.trans h45
    · exact absurd ⟨Option.some.inj (ha.symm.trans h24), Option.some.inj (hz.symm.trans h45)⟩ hn
  | append _ _ h46 h23 =>
    have h47 : s.count ≠ 47#6 := fun hc => by simp [hc] at h46
    simp [h23, h47] at he
  | raise => rfl

/-- Where the entries below the fill count are held, a byte step reads none that holds no value (R24). -/
theorem not_readsEmptyEntry_of_bufferHeld (hb : BufferHeld s) : ¬ ReadsEmptyEntry s := by
  have held (i : Nat) (hi : i < 48) (hc : i < s.count.toNat) : s.buf.read i ≠ none := by
    have := hb.2 ⟨i, hi⟩
    simp only [hc, decide_true] at this
    exact Option.isSome_iff_ne_none.mp this
  rintro ⟨-, ⟨hc, h21⟩ | ⟨hc, h24 | h45 | ⟨-, -, k, hk⟩⟩⟩
  · exact held 21 (by omega) (by simp [hc]) h21
  · exact held 24 (by omega) (by simp [hc]) h24
  · exact held 45 (by omega) (by simp [hc]) h45
  · exact held k.val (by omega) (by simp [hc]) hk

/-- Settles O46: the selected byte step answers a next state, and where it reads an empty entry that state is the raise. -/
theorem emptyEntryReadRaises : Obligations.EmptyEntryReadRaises := by
  refine ⟨fun s b he => ?_, fun s => not_readsEmptyEntry_of_bufferHeld⟩
  obtain ⟨t, hx, hr⟩ := exec_selected s b
  obtain rfl := hr.eq_raise_of_readsEmptyEntry he
  exact ⟨_, hx, rfl, rfl, ⟨rfl, rfl, rfl⟩, ⟨rfl, rfl, fun _ => rfl⟩, ⟨rfl, rfl⟩, rfl, rfl, rfl, rfl⟩

/-! ### The input a step takes -/

/-- A step is a clock edge, or a PUSH or a READ, which leave the block's record, Synchronizer and fault as they are (R58, R118). -/
theorem step_kept_or_edge (hstep : step s = .next t) :
    (t.fault = s.fault ∧ SameSync s t ∧ SameTelemetry s t ∧ (t.src = s.src ∨ ∃ b is, s.inputs = .push b :: is ∧ t.src = s.src ++ [b])) ∨
    ∃ h is, (s.inputs = .edge h :: is ∨ (s.inputs = [] ∧ is = [] ∧ h = 0#2)) ∧ EdgeResult h (s.setInputs is) t := by
  obtain ⟨b, is, hi, rfl⟩ | ⟨idx, is, v, n, -, -, rfl⟩ | hedge := step_cases s t hstep
  · exact .inl ⟨rfl, ⟨rfl, rfl, fun _ => rfl⟩, ⟨rfl, rfl⟩, .inr ⟨b, is, hi, rfl⟩⟩
  · exact .inl ⟨rfl, ⟨rfl, rfl, fun _ => rfl⟩, ⟨rfl, rfl⟩, .inl rfl⟩
  · exact .inr hedge

/-- A step whose input is a clock edge, scheduled or not (log entry 2). -/
theorem edgeResult_of_step {h : BitVec 2} {is : List Input} (hstep : step s = .next t) (hi : s.inputs = [] ∨ s.inputs = .edge h :: is) :
    ∃ h is, EdgeResult h (s.setInputs is) t := by
  obtain ⟨b, is, hpush, -⟩ | ⟨idx, is, v, n, hread, -, -⟩ | ⟨x, is, -, hr⟩ := step_cases s t hstep
  · simp [hpush] at hi
  · simp [hread] at hi
  · exact ⟨x, is, hr⟩

/-- An edge with RESET stands on the schedule: the quiet edge of an empty schedule drives h = 00. -/
theorem scheduled_of_rst {h : BitVec 2} {is : List Input} (hi : s.inputs = .edge h :: is ∨ (s.inputs = [] ∧ is = [] ∧ h = 0#2))
    (hr : h.getLsbD 1 = true) : ∃ h is, s.inputs = .edge h :: is ∧ h.getLsbD 1 = true := by
  obtain hi | ⟨-, -, rfl⟩ := hi
  · exact ⟨h, is, hi, hr⟩
  · simp at hr

/-! ### The record -/

/-- A byte step writes the record only by the commit of a whole frame with both completion markers (R29). -/
theorem ByteStepResult.sameTelemetry_or_commit {b : Byte} (h : ByteStepResult s b t) :
    SameTelemetry s t ∨
    (t.tlmValid = true ∧ t.evtCode = 1#3 ∧ s.mode = .acc ∧ s.count = 47#6 ∧
      ∃ f : Frame, f[47] = b ∧ (∀ k : Fin 47, s.buf.read k.val = some f[k.val]) ∧ f[24] = 0x76#8 ∧ f[45] = 0x00#8 ∧
        t.tlm = some (telemetryOf f)) := by
  cases h with
  | doneOk f hm hc ha he hf =>
    obtain ⟨hlast, hheld⟩ := s.completedFrame_bytes b f hf
    have h24 : f[24] = 0x76#8 := Option.some.inj ((hheld 24).symm.trans ha)
    have h45 : f[45] = 0x00#8 := Option.some.inj ((hheld 45).symm.trans he)
    exact .inr ⟨rfl, rfl, hm, hc, f, hlast, hheld, h24, h45, rfl⟩
  | _ => exact .inl ⟨rfl, rfl⟩

/-- Settles O30: of the inputs only an edge touches the record, and of the edges only RESET and the byte step that commits. -/
theorem telemetryWrittenOnlyByCommitOrReset : Obligations.TelemetryWrittenOnlyByCommitOrReset := by
  intro s t hstep
  obtain ⟨-, -, hsame, -⟩ | ⟨h, is, hi, hr⟩ := step_kept_or_edge hstep
  · exact .inl hsame
  cases hr with
  | reset hr => exact .inr (.inl ⟨rfl, rfl, scheduled_of_rst hi hr⟩)
  | byte b rest _ _ hb _ hs _ ht =>
    obtain hsame | ⟨hv, he, hm, hc, f, rfl, hheld, h24, h45, htlm⟩ := ht.sameTelemetry_or_commit
    · exact .inl hsame
    · exact .inr (.inr ⟨hv, he, hm, hc, hb, f, rest, hs, hheld, h24, h45, htlm⟩)
  | _ => exact .inl ⟨rfl, rfl⟩

/-- An edge drives the event of its own byte step: FRAME_OK only with a commit, ILLEGAL_STATE only with the fault (R31, R105, R107). -/
theorem EdgeResult.event_marks {h : BitVec 2} (hr : EdgeResult h s t) :
    (t.evtCode = 1#3 → t.tlmValid = true) ∧ (t.evtCode = 5#3 → t.fault = true) := by
  cases hr with
  | byte b rest _ _ _ _ _ _ ht =>
    cases ht with
    | doneOk => exact ⟨fun _ => rfl, nofun⟩
    | raise => exact ⟨nofun, fun _ => rfl⟩
    | _ => exact ⟨nofun, nofun⟩
  | _ => exact ⟨nofun, nofun⟩

/-- Settles O31: the three ways a step can leave the record (O30), and that an edge which drives FRAME_OK has committed. -/
theorem tlmValidLife : Obligations.TlmValidLife := by
  refine ⟨rfl, fun s t hsound hstep => ?_⟩
  have hframeOk : ∀ h is, s.inputs = [] ∨ s.inputs = .edge h :: is → t.evtCode = 1#3 → t.tlmValid = true := by
    intro h is hi
    obtain ⟨_, _, hr⟩ := edgeResult_of_step hstep hi
    exact hr.event_marks.1
  obtain ⟨htlm, hvalid⟩ | ⟨htlm, hvalid, hreset⟩ | ⟨hvalid, he, -, -, -, f, rest, -, -, -, -, htlm⟩ :=
    telemetryWrittenOnlyByCommitOrReset s t hstep
  · refine ⟨fun h1 h0 => ?_, hframeOk, fun h0 h1 => ?_, fun h0 => ?_⟩
    · simp [hvalid, h0] at h1
    · simp [hvalid, h1] at h0
    · simpa [htlm, ← hvalid, h0] using hsound.1
  · exact ⟨fun h1 => by simp [hvalid] at h1, hframeOk, fun _ _ => hreset, fun _ => htlm⟩
  · exact ⟨fun _ _ => ⟨he, by simp [htlm]⟩, hframeOk, fun h0 => by simp [hvalid] at h0, fun h0 => by simp [hvalid] at h0⟩

/-! ### The fault -/

/-- An edge raises the fault only with ILLEGAL_STATE, which a byte step drives (R107). -/
theorem EdgeResult.evtCode_of_fault {h : BitVec 2} (hr : EdgeResult h s t) (hs : s.fault = false) (ht : t.fault = true) :
    t.evtCode = 5#3 := by
  cases hr with
  | reset => cases ht
  | byte b rest _ _ _ _ _ _ hbyte =>
    cases hbyte with
    | raise => rfl
    | _ => exact absurd ht (by simp [hs])
  | _ => exact absurd ht (by simp [hs])

/-- While the fault stands an edge is RESET, or reads no byte and performs no byte step (R32). -/
theorem EdgeResult.of_fault {h : BitVec 2} (hr : EdgeResult h s t) (hs : s.fault = true) :
    t.src = s.src ∧ ((h.getLsbD 1 = true ∧ t.fault = false) ∨ (t.fault = true ∧ SameSync s t ∧ SameTelemetry s t)) := by
  cases hr with
  | reset hr => exact ⟨rfl, .inl ⟨hr, rfl⟩⟩
  | byte _ _ _ _ _ hf => simp [hs] at hf
  | _ => exact ⟨rfl, .inr ⟨hs, ⟨rfl, rfl, fun _ => rfl⟩, rfl, rfl⟩⟩

/-- Settles O32: a PUSH and a READ leave the fault as it is, and so does every edge but a raise and a RESET. -/
theorem faultIsSticky : Obligations.FaultIsSticky := by
  refine ⟨rfl, fun s t hstep => ?_⟩
  have hillegal : ∀ h is, s.inputs = [] ∨ s.inputs = .edge h :: is → t.evtCode = 5#3 → t.fault = true := by
    intro h is hi
    obtain ⟨_, _, hr⟩ := edgeResult_of_step hstep hi
    exact hr.event_marks.2
  obtain ⟨hfault, hsync, htlm, hsrc⟩ | ⟨h, is, hi, hr⟩ := step_kept_or_edge hstep
  · exact ⟨fun h1 h0 => by simp [hfault, h0] at h1, hillegal, fun h0 h1 => by simp [hfault, h1] at h0, fun _ => hsrc,
      fun _ _ => ⟨hsync, htlm⟩⟩
  · refine ⟨fun h1 h0 => hr.evtCode_of_fault h0 h1, hillegal, fun h0 h1 => ?_, fun h1 => .inl (hr.of_fault h1).1, fun h1 h1' => ?_⟩
    · obtain ⟨-, ⟨hrst, -⟩ | ⟨hf, -⟩⟩ := hr.of_fault h1
      · exact scheduled_of_rst hi hrst
      · simp [hf] at h0
    · obtain ⟨-, ⟨-, hf⟩ | ⟨-, hkept⟩⟩ := hr.of_fault h1
      · simp [hf] at h1'
      · exact hkept

end Sys2Proof.Machine
end

section
/-! The byte source over a step (R56, R58): who takes a byte from it, and who adds one. -/

namespace Sys2Proof.Machine

open Sys2Proof.Safety

variable {s t : State}

/-- A byte step writes the block's own registers only: its byte has been read before it runs (R59). -/
theorem ByteStepResult.sameOutside {b : Byte} (h : ByteStepResult s b t) : SameOutside s t := by
  cases h with
  | _ => exact ⟨rfl, rfl, rfl, rfl⟩

/-- A clock edge leaves the source as it is, or is an edge of a running invocation that takes the oldest byte (R56, R109). -/
theorem EdgeResult.src_cases {h : BitVec 2} (hr : EdgeResult h s t) :
    t.src = s.src ∨ (s.busy = true ∧ s.fault = false ∧ ∃ b, s.src = b :: t.src) := by
  cases hr with
  | byte b rest _ _ hb hf hs _ ht =>
    obtain ⟨hsrc, -⟩ := ht.sameOutside
    exact .inr ⟨hb, hf, b, by simpa [hsrc] using hs⟩
  | _ => exact .inl rfl

/-- Settles O33: a READ leaves the source as it is, a PUSH appends to it, and of the edges only a byte step takes from it. -/
theorem sourceReadInOrder : Obligations.SourceReadInOrder := by
  intro s t hstep
  obtain ⟨-, -, -, hsame | hpush⟩ | ⟨h, is, -, hr⟩ := step_kept_or_edge hstep
  · exact .inl hsame
  · exact .inr (.inr hpush)
  · obtain hsame | htaken := hr.src_cases
    · exact .inl hsame
    · exact .inr (.inl htaken)

/-- A step whose input is a PUSH is that PUSH, the input taken off the schedule (log entry 2). -/
theorem step_push (s : State) (b : Byte) (is : List Input) (hi : s.inputs = .push b :: is) :
    step s = .next ((s.setInputs is).pushByte b) := by
  simp only [step, State.takeInput, hi, State.runInput]

/-- Settles O7: `State.pushByte` writes the source alone. -/
theorem pushAppendsToSource : Obligations.PushAppendsToSource := by
  intro s b is hi
  exact ⟨_, step_push s b is hi, rfl, rfl, ⟨rfl, rfl, fun _ => rfl⟩, ⟨rfl, rfl⟩, ⟨rfl, rfl, rfl⟩, rfl, rfl, rfl, rfl⟩

end Sys2Proof.Machine
end

section
/-! The decoder against the encoder (R75 to R78): each is read off the other, row by row. -/

namespace Sys2Proof

/-! ### Decoding what was encoded -/

/-- A decision word decodes to the instruction of the row it selects. -/
theorem decode_of_selectedRow {w : DecisionWord} {a : ByteAction} (h : Laws.EncodeSelectsRow.selectedRow (.byteStep w) = some a) :
    decode (.byteStep w) = .ok (instrOf w a) := by
  obtain rfl : selectAction w = a := Option.some.inj h
  rfl

theorem decodeHost_reset (withPoll : Bool) : decodeHost (0b1#1 ++ BitVec.ofBool withPoll) = .ok (.reset withPoll) := by
  cases withPoll <;> rfl

/-- Settles O1: the word of a BYTESTEP instruction selects the instruction's own row (`Laws.EncodeSelectsRow`), and the row reads each operand
back from the field it was written to. -/
theorem decodeEncodeAgree : Obligations.DecodeEncodeAgree := by
  intro i hwf
  cases i with
  | seekStart z21 s24 z45 =>
    exact (decode_of_selectedRow (Laws.EncodeSelectsRow.seekStart z21 s24 z45 hwf)).trans (by simp [instrOf])
  | seekDrop z21 s24 z45 b =>
    exact (decode_of_selectedRow (Laws.EncodeSelectsRow.seekDrop z21 s24 z45 b hwf)).trans (by simp [instrOf])
  | accChk24Discard s24 z45 b =>
    exact (decode_of_selectedRow (Laws.EncodeSelectsRow.accChk24Discard s24 z45 b hwf)).trans (by simp [instrOf])
  | accChk24Pass s24 z45 b =>
    exact (decode_of_selectedRow (Laws.EncodeSelectsRow.accChk24Pass s24 z45 b hwf)).trans (by simp [instrOf])
  | accDoneOk z21 b =>
    exact (decode_of_selectedRow (Laws.EncodeSelectsRow.accDoneOk z21 b hwf)).trans (by simp [instrOf])
  | accDoneBad z21 s24 z45 b =>
    exact (decode_of_selectedRow (Laws.EncodeSelectsRow.accDoneBad z21 s24 z45 b hwf)).trans (by simp [instrOf])
  | accAppend c z21 s24 z45 b =>
    exact (decode_of_selectedRow (Laws.EncodeSelectsRow.accAppend c z21 s24 z45 b hwf)).trans (by simp [instrOf])
  | illegalState m c z21 s24 z45 b =>
    exact (decode_of_selectedRow (Laws.EncodeSelectsRow.illegalState m c z21 s24 z45 b hwf)).trans (by simp [instrOf])
  | poll => rfl
  | reset withPoll => exact decodeHost_reset withPoll
  | read idx =>
    have hidx : idx.toNat ≤ 13 := of_decide_eq_true hwf
    simp [encode, decode, decodeSink, hidx]

/-! ### Encoding what was decoded -/

/-- The instruction is well-formed and its word is e. -/
def IsInstrOf (i : Instr) (e : Encoded) : Prop := i.wf = true ∧ encode i = e

/-- A decision word is the word of the instruction it decodes to: the row it selects fixes exactly the fields the instruction does not carry. -/
theorem decodeByteStep_isInstrOf (w : DecisionWord) : IsInstrOf (decodeByteStep w) (.byteStep w) := by
  rw [← wordOf_fields w]
  generalize wordM w = m, wordC w = c, wordZ21 w = z21, wordS24 w = s24, wordZ45 w = z45, wordB w = b
  rw [decodeByteStep_wordOf]
  cases m with
  | false =>
    rw [if_pos rfl]
    split_ifs with hc hb
    · subst hc hb
      exact ⟨rfl, rfl⟩
    · subst hc
      exact ⟨by simpa [Instr.wf] using hb, rfl⟩
    · exact ⟨by simpa [Instr.wf, ← BitVec.toNat_inj] using hc, rfl⟩
  | true =>
    rw [if_neg nofun]
    split_ifs with hc23 hz hc47 hok hr
    · subst hc23 hz
      exact ⟨rfl, rfl⟩
    · obtain rfl : z21 = false := by simpa using hz
      subst hc23
      exact ⟨rfl, rfl⟩
    · obtain ⟨rfl, rfl⟩ := hok
      subst hc47
      exact ⟨rfl, rfl⟩
    · subst hc47
      exact ⟨by simpa [Instr.wf, imp_iff_not_or] using hok, rfl⟩
    · have h23 : c.toNat ≠ 23 := fun h => hc23 (BitVec.eq_of_toNat_eq h)
      exact ⟨by simp [Instr.wf, hr, h23], rfl⟩
    · have h47 : c.toNat ≠ 47 := fun h => hc47 (BitVec.eq_of_toNat_eq h)
      have hout : c.toNat = 0 ∨ 48 ≤ c.toNat := by omega
      exact ⟨by simpa [Instr.wf] using hout, rfl⟩

theorem decodeHost_isInstrOf (h : BitVec 2) (i : Instr) (hd : decodeHost h = .ok i) : IsInstrOf i (.host h) := by
  rw [decodeHost_eq] at hd
  split_ifs at hd with h0 h1
  · cases hd
    exact ⟨rfl, by rw [h1]; rfl⟩
  · cases hd
    have hrst : ∀ x : BitVec 2, x ≠ 0#2 → x ≠ 1#2 → 0b1#1 ++ BitVec.ofBool (x.getLsbD 0) = x := by decide
    exact ⟨rfl, congrArg Encoded.host (hrst h h0 h1)⟩

theorem decodeSink_isInstrOf (idx : BitVec 4) (i : Instr) (hd : decodeSink idx = .ok i) : IsInstrOf i (.sink idx) := by
  unfold decodeSink at hd
  split_ifs at hd with hidx
  cases hd
  exact ⟨decide_eq_true hidx, rfl⟩

/-- Settles O2: format by format, the decoder inverts the encoder. -/
theorem decodedWordReencodes : Obligations.DecodedWordReencodes := by
  intro e i hd
  cases e with
  | byteStep w =>
    obtain rfl : decodeByteStep w = i := Except.ok.inj hd
    exact decodeByteStep_isInstrOf w
  | host h => exact decodeHost_isInstrOf h i hd
  | sink idx => exact decodeSink_isInstrOf idx i hd

/-- Settles O3: thirteen closed words, each evaluated by the decoder. -/
theorem specWordsDecode : Obligations.SpecWordsDecode := by
  unfold Obligations.SpecWordsDecode
  decide

end Sys2Proof
end

section
/-! What a scheduled edge runs, and the edges before which src_read is 1 (R77, R78, R217). -/

namespace Sys2Proof.Machine

variable {s t : State}

/-- A step at a scheduled edge is one of the six results of the edge (R217). -/
theorem edgeResult_of_scheduled {h : BitVec 2} {is : List Input} (hi : s.inputs = .edge h :: is) (hstep : step s = .next t) :
    EdgeResult h (s.setInputs is) t := by
  obtain ⟨t', ht, hr⟩ := (s.setInputs is).clockEdge_total h
  rw [step_edge s h is hi, ht] at hstep
  cases hstep
  exact hr

/-! ### Host events -/

/-- An edge whose host event word starts an instruction runs it, the strobe of the edge before having ended (R31, R217). -/
theorem State.clockEdge_of_hostEvent {h : BitVec 2} {i : Instr} (he : s.emitNone.hostEvent h = some i) : s.clockEdge h = exec i s.emitNone := by
  simp only [State.clockEdge, he]

/-- RESET is run at every edge that decodes to it (R77). -/
theorem State.hostEvent_reset {h : BitVec 2} {p : Bool} (hd : decodeHost h = .ok (.reset p)) : s.hostEvent h = some (.reset p) := by
  simp only [State.hostEvent, hd]

/-- POLL is run while no invocation is running (R110). -/
theorem State.hostEvent_poll {h : BitVec 2} (hd : decodeHost h = .ok .poll) (hb : s.busy = false) : s.hostEvent h = some .poll := by
  simp [State.hostEvent, hd, hb]

/-- Settles O5: a scheduled edge is the clock edge of the state without that input, and its host event is the instruction decoded. -/
theorem edgeRunsHostEvent : Obligations.EdgeRunsHostEvent := by
  intro s h is hi
  rw [step_edge s h is hi]
  exact ⟨fun p hd => State.clockEdge_of_hostEvent (State.hostEvent_reset hd),
    fun hd hb => State.clockEdge_of_hostEvent (State.hostEvent_poll hd hb)⟩

/-! ### The port src_read -/

theorem State.srcReadPort_eq_true (h : BitVec 2) :
    s.srcReadPort h = true ↔ s.busy = true ∧ s.src ≠ [] ∧ s.fault = false ∧ h.getLsbD 1 = false := by
  simp [State.srcReadPort, State.srcAvail, and_assoc]

/-- At each kind of edge the port says whether a byte leaves the source: it is 1 only where the edge is a byte step. -/
theorem EdgeResult.srcReadPort_iff {h : BitVec 2} (hr : EdgeResult h s t) : s.srcReadPort h = true ↔ ∃ b, s.src = b :: t.src := by
  rw [State.srcReadPort_eq_true]
  cases hr with
  | byte b rest _ hrst hb hf hs _ ht =>
    obtain ⟨hsrc, -⟩ := ht.sameOutside
    exact iff_of_true ⟨hb, by simp [hs], hf, hrst⟩ ⟨b, by simpa [hsrc] using hs⟩
  | reset hrst => simp [hrst]
  | poll _ hb => simp [hb]
  | pollIgnored _ hb => simp [hb]
  | idle _ hb => simp [hb]
  | ends _ _ he => obtain he | he := he <;> simp [he]

/-- Settles O34: the port does not read the schedule, and a step at a scheduled edge is a result of that edge. -/
theorem srcReadPortMarksConsumption : Obligations.SrcReadPortMarksConsumption := by
  intro s t h is hi hstep
  exact (edgeResult_of_scheduled hi hstep).srcReadPort_iff

end Sys2Proof.Machine
end

section
/-! What the loop of R109 does with a candidate that is discarded, and the bytes of a candidate that decide nothing (R74). -/

namespace Sys2Proof.Machine

open Sys2Proof.Safety

variable (s : State)

/-! ### A premature discard -/

/-- A candidate whose byte 21 is the end marker is held up to its 23rd byte; the 24th discards it and ends the loop, and what follows stays
in the source (R104, R111). -/
theorem State.drain_premature (l : List Byte) (b c : Byte) (rest : List Byte) (hf : s.fault = false) (hl : l.length = 21)
    (h0 : l[0]? = some 0x76#8) :
    State.drain (l ++ 0x00#8 :: b :: c :: rest) s.clear =
      (((s.setSrc rest).clear.emit .prematureEof 0#2).endInvocation, [(2#3, 0#2)]) := by
  have held22 : byteStep 0x00#8 (s.holding l) = (s.holding (l ++ [0x00#8]), false) :=
    byteStep_holding s l _ (by omega) (by omega) (by omega)
  have held23 : byteStep b (s.holding (l ++ [0x00#8])) = (s.holding (l ++ [0x00#8] ++ [b]), false) :=
    byteStep_holding s _ b (by simp) (by simp [hl]) (by simp [hl])
  have hcount : (s.holding (l ++ [0x00#8] ++ [b])).count.toNat = 23 := by rw [State.holding_count_toNat] <;> simp [hl]
  have discard : byteStep c ((s.holding (l ++ [0x00#8] ++ [b])).setSrc rest) = ((s.setSrc rest).clear.emit .prematureEof 0#2, true) :=
    byteStep_discard _ c rfl hcount (by simp [hl])
  rw [s.drain_candidate l _ hf (by omega) h0 (by simp [hl]), State.drain_cons_quiet _ _ _ _ held22 hf rfl,
    State.drain_cons_quiet _ _ _ _ held23 hf rfl, State.drain_cons, discard]
  rfl

/-! ### A frame past the premature check -/

/-- A frame that passes the premature check is held up to its 48th byte (R100, R102, R103). -/
theorem State.drain_frame_held (f : Frame) (rest : List Byte) (hf : s.fault = false) (h0 : f[0] = 0x76#8) (h21 : f[21] ≠ 0x00#8) :
    State.drain (f.toList ++ rest) s.clear = State.drain (f[47] :: rest) (s.holding (f.toList.take 47)) := by
  have hsplit : f.toList ++ rest = f.toList.take 47 ++ f[47] :: rest := by
    rw [← List.singleton_append, ← List.append_assoc, ← frame_toList_eq f]
  rw [hsplit]
  exact s.drain_candidate _ _ hf (by simp) (by simp [h0]) (by simpa using h21)

/-- R106 as a case of the byte step: a completion marker fails. -/
theorem byteStep_doneBad (b a e : Byte) (hm : s.mode = .acc) (hc : s.count.toNat = 47) (ha : s.buf.read 24 = some a)
    (he : s.buf.read 45 = some e) (hn : ¬ (a = 0x76#8 ∧ e = 0x00#8)) :
    byteStep b s = (s.clear.emit .markerFail (markerInfo a e), false) := by
  have hn' : ¬ (e = 0x00#8 ∧ a = 0x76#8) := hn ∘ And.symm
  simp [byteStep, hm, hc, Config.eofIdx, Config.alignIdx, ha, he, hn']

/-- A frame that fails a completion marker is reported, and the loop goes on behind it as from the cleared Synchronizer that the frame met
(R106, R112). -/
theorem State.drain_markerFail (f : Frame) (rest : List Byte) (hf : s.fault = false) (h0 : f[0] = 0x76#8) (h21 : f[21] ≠ 0x00#8)
    (hn : ¬ (f[24] = 0x76#8 ∧ f[45] = 0x00#8)) :
    State.drain (f.toList ++ rest) s.clear =
      ((State.drain rest s.clear).1, (3#3, markerInfo f[24] f[45]) :: (State.drain rest s.clear).2) := by
  have hcount : (s.holding (f.toList.take 47)).count.toNat = 47 := by rw [State.holding_count_toNat] <;> simp
  have hlast : byteStep f[47] (s.holding (f.toList.take 47)) = (s.clear.emit .markerFail (markerInfo f[24] f[45]), false) :=
    byteStep_doneBad _ _ f[24] f[45] rfl hcount (by simp) (by simp) hn
  rw [s.drain_frame_held f rest hf h0 h21, State.drain_cons_report _ _ _ _ hlast hf rfl, State.drain_emit]
  rfl

/-! ### The bytes that are not interpreted -/

/-- The record of a frame is made of the bytes at the offsets the Decoder reads (R71, R140). -/
theorem telemetryOf_congr (f g : Frame) (h : ∀ k : Fin 48, k.val ∈ decodedOffsets → f[k.val] = g[k.val]) :
    telemetryOf f = telemetryOf g := by
  have hcommand (k : Fin 24) (hk : k.val ∈ decodedOffsets) : commandByte f k = commandByte g k := h ⟨k.val, by omega⟩ hk
  have hresponse (k : Fin 24) (hk : 24 + k.val ∈ decodedOffsets) : responseByte f k = responseByte g k := h ⟨24 + k.val, by omega⟩ hk
  simp (disch := decide) only [telemetryOf, hcommand, hresponse]

/-- A frame is its first 21 bytes, the three bytes of the premature check, and the rest. -/
theorem frame_toList_split (f : Frame) : f.toList = f.toList.take 21 ++ f[21] :: f[22] :: f[23] :: f.toList.drop 24 := by
  have hdrop : f.toList.drop 21 = f[21] :: f[22] :: f[23] :: f.toList.drop 24 := by
    simp [List.drop_eq_getElem_cons]
  rw [← hdrop, List.take_append_drop]

/-- An invocation of a seeking state of the invariant over these bytes is the loop from a cleared Synchronizer. -/
theorem State.invocation_setSrc_seek (l : List Byte) (hi : Inv s) (hidle : Idle s) :
    (s.setSrc l).invocation = State.drain l (s.setBusy true).clear :=
  ((s.setSrc l).invocation_seek (hi.setSrc l) hidle).trans (State.drain_setSrc l l (s.setBusy true).clear)

/-- Settles O45: what ends the candidate, and how, hangs on the four markers alone, and the record a commit writes on the bytes the Decoder
reads. Only a premature discard leaves a rest, of the same length. -/
theorem uninterpretedBytesDecideNothing : Obligations.UninterpretedBytesDecideNothing := by
  intro s f g hi hidle h0 hagree
  have hf : (s.setBusy true).fault = false := hidle.2.2
  have h0' : f[0] = g[0] := hagree 0 (by decide)
  have h21 : f[21] = g[21] := hagree 21 (by decide)
  have h24 : f[24] = g[24] := hagree 24 (by decide)
  have h45 : f[45] = g[45] := hagree 45 (by decide)
  dsimp only
  rw [s.invocation_setSrc_seek _ hi hidle, s.invocation_setSrc_seek _ hi hidle]
  by_cases hz : f[21] = 0x00#8
  · rw [frame_toList_split f, frame_toList_split g, ← h21, hz,
      State.drain_premature _ _ _ _ _ hf (by simp) (by simp [h0]), State.drain_premature _ _ _ _ _ hf (by simp) (by simp [← h0', h0])]
    exact ⟨rfl, ⟨rfl, rfl⟩, ⟨rfl, rfl, fun _ => rfl⟩, ⟨rfl, rfl, rfl⟩, rfl, rfl, by simp⟩
  · have hsame : State.drain f.toList (s.setBusy true).clear = State.drain g.toList (s.setBusy true).clear := by
      rw [← List.append_nil f.toList, ← List.append_nil g.toList]
      by_cases hmarkers : f[24] = 0x76#8 ∧ f[45] = 0x00#8
      · obtain ⟨ha, he⟩ := hmarkers
        have htlm : telemetryOf f = telemetryOf g :=
          telemetryOf_congr f g fun k hk => hagree k (List.mem_append_right _ hk)
        rw [State.drain_frame _ f [] hf ⟨h0, hz, ha, he⟩,
          State.drain_frame _ g [] hf ⟨h0' ▸ h0, h21 ▸ hz, h24 ▸ ha, h45 ▸ he⟩, htlm]
      · rw [State.drain_markerFail _ f [] hf h0 hz hmarkers,
          State.drain_markerFail _ g [] hf (h0' ▸ h0) (h21 ▸ hz) (h24 ▸ h45 ▸ hmarkers), h24, h45]
    rw [hsame]
    exact ⟨rfl, ⟨rfl, rfl⟩, ⟨rfl, rfl, fun _ => rfl⟩, ⟨rfl, rfl, rfl⟩, rfl, rfl, rfl⟩

end Sys2Proof.Machine
end

section
/-! The byte step as the machine takes it: the selected row computes BYTESTEP (R116), and one edge of an invocation is one turn of the loop
of R109. -/

namespace Sys2Proof.Machine

variable (s : State)

/-! ### The cases in which BYTESTEP raises IllegalState -/

theorem byteStep_raise_of_seek (b : Byte) (hm : s.mode = .seek) (hc : s.count ≠ 0#6) : byteStep b s = (s.raiseIllegalState, true) := by
  simp [byteStep, hm, hc]

theorem byteStep_raise_of_acc (b : Byte) (hm : s.mode = .acc) (hc : ¬ (1 ≤ s.count.toNat ∧ s.count.toNat ≤ 47)) :
    byteStep b s = (s.raiseIllegalState, true) := by
  simp [byteStep, hm, hc]

theorem byteStep_chk24_empty (b : Byte) (hm : s.mode = .acc) (hc : s.count.toNat = 23) (hv : s.buf.read 21 = none) :
    byteStep b s = (s.raiseIllegalState, true) := by
  simp [byteStep, hm, hc, Config.prematureIdx, hv]

theorem byteStep_doneOk_empty (b : Byte) (hm : s.mode = .acc) (hc : s.count.toNat = 47) (ha : s.buf.read 24 = some 0x76#8)
    (he : s.buf.read 45 = some 0x00#8) (hf : s.completedFrame b = none) : byteStep b s = (s.raiseIllegalState, true) := by
  simp [byteStep, hm, hc, Config.eofIdx, Config.alignIdx, ha, he, hf]

theorem byteStep_doneBad_empty (b : Byte) (hm : s.mode = .acc) (hc : s.count.toNat = 47)
    (h : s.buf.read 24 = none ∨ s.buf.read 45 = none) : byteStep b s = (s.raiseIllegalState, true) := by
  obtain h | h := h <;> simp [byteStep, hm, hc, Config.eofIdx, Config.alignIdx, h]

/-- R24: DECODE reads an entry that holds no value. -/
theorem exec_accDoneOk_empty (z : Bool) (b : Byte) (hf : s.completedFrame b = none) :
    exec (.accDoneOk z b) s = .next s.raiseIllegalState := by
  simp only [exec, execAccDoneOk, hf]

/-- R24: a completion check reads an entry that holds no value. -/
theorem exec_accDoneBad_empty (z s24 z' : Bool) (b : Byte) (h : s.buf.read 24 = none ∨ s.buf.read 45 = none) :
    exec (.accDoneBad z s24 z' b) s = .next s.raiseIllegalState := by
  obtain h | h := h <;> simp [exec, execAccDoneBad, Config.alignIdx, Config.eofIdx, h]

/-! ### BYTESTEP against the rows -/

/-- How an action carries out BYTESTEP on the state it is selected in: an abort ends the invocation (R104, R109), and any other byte step lets
it go on as it was. -/
inductive ByteStepTurn (i : Instr) (s : State) (b : Byte) : Prop
  | goesOn (t : State) (h : byteStep b s = (t, false)) (hx : exec i s = .next t) (hf : t.fault = s.fault) (hb : t.busy = s.busy)
  | ends (t : State) (h : byteStep b s = (t, true)) (hx : exec i s = .next t.endInvocation)

/-- The row the state selects computes BYTESTEP (R116), in every state. -/
theorem exec_selected_turn (b : Byte) : ByteStepTurn (s.selected b) s b := by
  rw [State.selected_eq]
  cases hm : s.mode with
  | seek =>
    simp only
    split_ifs with hc hb
    · subst hb
      exact .goesOn _ (byteStep_start s hm hc) (exec_seekStart _ _ _ s) rfl rfl
    · exact .goesOn _ (byteStep_drop s b hm hc hb) (exec_seekDrop _ _ _ b s) rfl rfl
    · exact .ends _ (byteStep_raise_of_seek s b hm hc) (exec_illegalState _ _ _ _ _ b s)
  | acc =>
    simp only [holdsEof_eq_true, holdsStart_eq_true]
    split_ifs with hc23 hz hc47 hok hr
    · have h23 : s.count.toNat = 23 := congrArg BitVec.toNat hc23
      exact .ends _ (byteStep_discard s b hm h23 hz) (exec_accChk24Discard _ _ b s)
    · have h23 : s.count.toNat = 23 := congrArg BitVec.toNat hc23
      cases hv : s.buf.read 21 with
      | none => exact .ends _ (byteStep_chk24_empty s b hm h23 hv) (exec_accChk24Pass_empty _ _ b s hv)
      | some v =>
        have hne : v ≠ 0x00#8 := fun h => hz (hv.trans (congrArg some h))
        exact .goesOn _ (byteStep_pass s b v hm h23 hv hne) (exec_accChk24Pass _ _ b v s hv) rfl rfl
    · have h47 : s.count.toNat = 47 := congrArg BitVec.toNat hc47
      obtain ⟨ha, he⟩ := hok
      cases hf : s.completedFrame b with
      | none => exact .ends _ (byteStep_doneOk_empty s b hm h47 ha he hf) (exec_accDoneOk_empty s _ b hf)
      | some l =>
        obtain ⟨f, rfl, hd⟩ := s.decodeFrame_completed b l hf
        exact .goesOn _ (byteStep_doneOk s b f hm h47 ha he hf) (hd ▸ exec_accDoneOk _ b s _ hf) rfl rfl
    · have h47 : s.count.toNat = 47 := congrArg BitVec.toNat hc47
      by_cases hempty : s.buf.read 24 = none ∨ s.buf.read 45 = none
      · exact .ends _ (byteStep_doneBad_empty s b hm h47 hempty) (exec_accDoneBad_empty s _ _ _ b hempty)
      · obtain ⟨h24, h45⟩ := not_or.mp hempty
        obtain ⟨a, ha⟩ := Option.ne_none_iff_exists'.mp h24
        obtain ⟨e, he⟩ := Option.ne_none_iff_exists'.mp h45
        have hn : ¬ (a = 0x76#8 ∧ e = 0x00#8) := by simpa [ha, he] using hok
        exact .goesOn _ (byteStep_doneBad s b a e hm h47 ha he hn) (exec_accDoneBad _ _ _ b s a e ha he) rfl rfl
    · have h23 : s.count.toNat ≠ 23 := fun h => hc23 (BitVec.eq_of_toNat_eq h)
      exact .goesOn _ (byteStep_append s b hm hr.1 hr.2 h23) (exec_accAppend _ _ _ _ b s (by omega)) rfl rfl
    · have h47 : s.count.toNat ≠ 47 := fun h => hc47 (BitVec.eq_of_toNat_eq h)
      exact .ends _ (byteStep_raise_of_acc s b hm (by omega)) (exec_illegalState _ _ _ _ _ b s)

/-! ### One edge of an invocation -/

/-- A step that meets an edge at the head of the schedule. -/
theorem step_setInputs_edge (h : BitVec 2) (is : List Input) : step (s.setInputs (.edge h :: is)) = (s.setInputs is).clockEdge h :=
  step_edge _ h is rfl

/-- The event the state drives, if any (R31). -/
def State.driven (s : State) : List (BitVec 3 × BitVec 2) := if s.evtStrobe then [(s.evtCode, s.evtInfo)] else []

/-- One scheduled edge with h = 00 of a running invocation that finds a byte, beside one turn of the loop (R109). -/
inductive LoopTurn (s : State) (b : Byte) (rest : List Byte) (is : List Input) : Prop
  | goesOn (t : State) (hstep : step ((s.setSrc (b :: rest)).setInputs (.edge 0#2 :: is)) = .next ((t.setSrc rest).setInputs is))
      (hb : t.busy = true) (hf : t.fault = false)
      (hd : State.drain (b :: rest) s = ((State.drain rest t).1, t.driven ++ (State.drain rest t).2))
  | ends (t : State) (hstep : step ((s.setSrc (b :: rest)).setInputs (.edge 0#2 :: is)) = .next (t.setInputs is))
      (hb : t.busy = false) (hd : State.drain (b :: rest) s = (t, t.driven))

/-- The edge is the byte step of the row selected, and the loop's turn is BYTESTEP. -/
theorem loopTurn (b : Byte) (rest : List Byte) (is : List Input) (hb : s.busy = true) (hf : s.fault = false) : LoopTurn s b rest is := by
  generalize hx : ((s.setSrc rest).emitNone).setInputs is = x
  have hstep : step ((s.setSrc (b :: rest)).setInputs (.edge 0#2 :: is)) = exec (x.selected b) x := by
    rw [step_setInputs_edge, State.clockEdge_busy_cons ((s.setSrc (b :: rest)).setInputs is) 0#2 b rest (by decide) hb hf rfl, ← hx]
    rfl
  obtain ⟨⟨t, aborts⟩, hr⟩ : ∃ r, byteStep b s = r := ⟨_, rfl⟩
  have hread : byteStep b x = ((t.setSrc rest).setInputs is, aborts) := by
    rw [← hx, byteStep_setInputs, byteStep_emitNone, byteStep_setSrc, hr]
  cases exec_selected_turn x b with
  | goesOn u h hexec hfault hbusy =>
    obtain ⟨rfl, rfl⟩ := Prod.mk.inj (hread.symm.trans h)
    have hf' : t.fault = false := by simpa [← hx, hf] using hfault
    have hb' : t.busy = true := by simpa [← hx, hb] using hbusy
    refine .goesOn t (hstep.trans hexec) hb' hf' ?_
    simp [State.drain_cons, byteStep_setSrc, hr, hf', State.drain_setSrc, State.driven]
  | ends u h hexec =>
    obtain ⟨rfl, rfl⟩ := Prod.mk.inj (hread.symm.trans h)
    refine .ends (t.setSrc rest).endInvocation (hstep.trans hexec) rfl ?_
    rw [State.drain_cons, byteStep_setSrc, hr]
    rfl

end Sys2Proof.Machine
end

section
/-! Runs of the machine with their events: quiet edges, and a whole invocation (R109, R113). -/

namespace Sys2Proof.Machine

open Sys2Proof.Safety

/-! ### Runs -/

/-- k steps lead from s to t, and put these events on the event output, in order. -/
inductive Runs : Nat → State → State → List (BitVec 3 × BitVec 2) → Prop
  | refl (s : State) : Runs 0 s s []
  | cons {k : Nat} {s t u : State} {events : List (BitVec 3 × BitVec 2)} (h : step s = .next t) (hr : Runs k t u events) :
      Runs (k + 1) s u (stepEvents s t ++ events)

variable {s t u : State}

/-- A step that drives no event, and the run behind it. -/
theorem Runs.cons_quiet {k : Nat} {events : List (BitVec 3 × BitVec 2)} (h : step s = .next t) (he : stepEvents s t = [])
    (hr : Runs k t u events) : Runs (k + 1) s u events := by
  have := Runs.cons h hr
  rwa [he, List.nil_append] at this

theorem Runs.trans {m n : Nat} {first second : List (BitVec 3 × BitVec 2)} (hr : Runs m s t first) (hr' : Runs n t u second) :
    Runs (m + n) s u (first ++ second) := by
  induction hr with
  | refl s => simpa using hr'
  | cons h _ ih =>
    rw [Nat.add_right_comm, List.append_assoc]
    exact .cons h (ih hr')

theorem Runs.after {k : Nat} {events : List (BitVec 3 × BitVec 2)} (hr : Runs k s t events) : After k s t := by
  induction hr with
  | refl s => rfl
  | cons h _ ih =>
    simp only [After, Host.Core.run, h]
    exact ih

theorem Runs.eventsAfter_eq {k : Nat} {events : List (BitVec 3 × BitVec 2)} (hr : Runs k s t events) : eventsAfter k s = events := by
  induction hr with
  | refl s => rfl
  | cons h _ ih => simp only [eventsAfter, h, ih]

/-- The machine is refused k steps from here, or before (R118). -/
def Refused (k : Nat) (s : State) (r : Refusal) : Prop :=
  Host.Core.run { State := State, Fault := Fault, Refusal := Refusal, step := step, reset := State.reset } k s = .refused r

theorem refused_of_step {r : Refusal} (h : step s = .refused r) (k : Nat) : Refused (k + 1) s r := by
  simp only [Refused, Host.Core.run, h]

theorem Runs.refused {m n : Nat} {events : List (BitVec 3 × BitVec 2)} {r : Refusal} (hr : Runs m s t events) (h : Refused n t r) :
    Refused (m + n) s r := by
  induction hr with
  | refl s => simpa using h
  | cons hstep _ ih =>
    rw [Nat.add_right_comm]
    simp only [Refused, Host.Core.run, hstep]
    exact ih h

/-! ### Quiet edges -/

/-- An edge with h = 00 has no host event to run (R77). -/
theorem State.clockEdge_zero (s : State) : s.clockEdge 0#2 = s.emitNone.drainEdge := rfl

theorem State.drainEdge_idle (hb : s.busy = false) : s.drainEdge = .next s := by
  simp [State.drainEdge, hb]

/-- An invocation that finds no byte ends, whether a fault stands or not (R109). -/
theorem State.drainEdge_nil (hb : s.busy = true) (hs : s.src = []) : s.drainEdge = .next s.endInvocation := by
  simp [State.drainEdge, State.srcRead, hb, hs]

/-- An edge with h = 00 while no invocation is running only ends the strobe (R31, R113). -/
theorem step_idle_edge (hb : s.busy = false) (is : List Input) :
    step (s.setInputs (.edge 0#2 :: is)) = .next (s.emitNone.setInputs is) := by
  rw [step_setInputs_edge, State.clockEdge_zero]
  exact State.drainEdge_idle (s := s.emitNone.setInputs is) hb

/-- An edge with h = 00 of an invocation that finds no byte is the end of the loop (R109). -/
theorem step_drained_edge (hb : s.busy = true) (is : List Input) :
    step ((s.setSrc []).setInputs (.edge 0#2 :: is)) = .next ((State.drain [] s).1.setInputs is) := by
  rw [step_setInputs_edge, State.clockEdge_zero]
  exact State.drainEdge_nil (s := (s.setSrc []).emitNone.setInputs is) hb rfl

/-- k quiet edges and what is on the schedule behind them. -/
def quietEdges (k : Nat) (is : List Input) : List Input := List.replicate k (.edge 0#2) ++ is

/-- Quiet edges change nothing where no strobe stands. -/
theorem runs_quiet_emitted (k : Nat) (is : List Input) (hb : s.busy = false) :
    Runs k (s.emitNone.setInputs (quietEdges k is)) (s.emitNone.setInputs is) [] := by
  induction k with
  | zero => exact .refl _
  | succ k ih => exact .cons_quiet (step_idle_edge (s := s.emitNone) hb _) rfl ih

/-- At least one quiet edge while no invocation is running ends the strobe, and changes nothing else (R113). -/
theorem runs_quiet (k : Nat) (is : List Input) (hb : s.busy = false) :
    Runs (k + 1) (s.setInputs (quietEdges (k + 1) is)) (s.emitNone.setInputs is) [] :=
  .cons_quiet (step_idle_edge hb _) rfl (runs_quiet_emitted k is hb)

/-! ### An invocation on the machine -/

/-- More quiet edges than there are bytes carry a running invocation to its end, with the events of the loop of R109, and end its strobe. -/
theorem runs_drain (l : List Byte) (k : Nat) (is : List Input) (hb : s.busy = true) (hf : s.fault = false) (hk : l.length < k) :
    Runs k ((s.setSrc l).setInputs (quietEdges k is)) ((State.drain l s).1.emitNone.setInputs is) (State.drain l s).2 := by
  induction l generalizing s k with
  | nil =>
    obtain ⟨k, rfl⟩ := Nat.exists_eq_add_one_of_ne_zero (Nat.ne_of_gt hk)
    exact .cons_quiet (step_drained_edge hb _) rfl (runs_quiet_emitted k is (s := (State.drain [] s).1) rfl)
  | cons b rest ih =>
    obtain ⟨k, rfl⟩ := Nat.exists_eq_add_one_of_ne_zero (Nat.ne_of_gt (Nat.zero_lt_of_lt hk))
    have hk' : rest.length < k := Nat.lt_of_succ_lt_succ hk
    cases loopTurn s b rest (quietEdges k is) hb hf with
    | goesOn t hstep hb' hf' hd =>
      rw [hd]
      exact (Runs.cons hstep (ih k hb' hf' hk') :)
    | ends t hstep hb' hd =>
      obtain ⟨k, rfl⟩ := Nat.exists_eq_add_one_of_ne_zero (Nat.ne_of_gt (Nat.zero_lt_of_lt hk'))
      rw [hd, ← List.append_nil t.driven]
      exact (Runs.cons hstep (runs_quiet k is hb') :)

/-- A POLL edge and more quiet edges than there are bytes compute POLL as one operation (R109), whether it has an effect or not (R110). -/
theorem runs_poll (k : Nat) (is : List Input) (hb : s.busy = false) (hk : s.src.length < k) :
    Runs (k + 1) (s.setInputs (.edge 0b01#2 :: quietEdges k is)) (s.emitNone.invocation.1.emitNone.setInputs is)
      s.emitNone.invocation.2 := by
  have hpoll : step (s.setInputs (.edge 0b01#2 :: quietEdges k is)) = exec .poll (s.emitNone.setInputs (quietEdges k is)) :=
    (edgeRunsHostEvent (s.setInputs (.edge 0b01#2 :: quietEdges k is)) 0b01#2 _ rfl).2 rfl hb
  cases hf : s.fault with
  | true =>
    have hinv : s.emitNone.invocation = (s.emitNone, []) := by simp [State.invocation, hf]
    rw [hinv]
    exact .cons_quiet (hpoll.trans (exec_poll_ignored _ (.inr hf))) rfl (runs_quiet_emitted k is hb)
  | false =>
    rw [s.emitNone.invocation_start hb hf]
    exact .cons_quiet (hpoll.trans (exec_poll_idle _ hb hf)) rfl (runs_drain (s := s.emitNone.setBusy true) s.src k is rfl hf hk)

end Sys2Proof.Machine
end

section
/-! Host scripts on the machine, line by line (R83). -/

namespace Sys2Proof.Machine

open Sys2Proof.Safety

variable {s t u : State}

/-! ### What a script line keeps -/

theorem byteStep_src (b : Byte) (l : List Byte) : (byteStep b (s.setSrc l)).1.src = l := by
  rw [byteStep_setSrc]
  rfl

/-- An invocation ends, reads from the source only, and leaves the schedule alone (R56, R109). -/
theorem State.drain_kept (l : List Byte) (s : State) :
    (State.drain l s).1.busy = false ∧ (State.drain l s).1.src.length ≤ l.length ∧ (State.drain l s).1.inputs = s.inputs := by
  have hinputs : (State.drain l s).1.inputs = s.inputs :=
    congrArg (fun r => r.1.inputs) (State.drain_setInputs l s s.inputs)
  suffices h : (State.drain l s).1.busy = false ∧ (State.drain l s).1.src.length ≤ l.length from ⟨h.1, h.2, hinputs⟩
  clear hinputs
  induction l generalizing s with
  | nil => exact ⟨rfl, Nat.le_refl 0⟩
  | cons b rest ih =>
    rw [State.drain_cons]
    dsimp only
    split
    · exact ⟨rfl, by simp [byteStep_src]⟩
    · obtain ⟨hb, hlen⟩ := ih (byteStep b (s.setSrc rest)).1
      exact ⟨hb, Nat.le_succ_of_le hlen⟩

theorem State.invocation_kept (s : State) (hb : s.busy = false) :
    s.invocation.1.busy = false ∧ s.invocation.1.src.length ≤ s.src.length ∧ s.invocation.1.inputs = s.inputs := by
  unfold State.invocation
  split_ifs
  · exact ⟨hb, Nat.le_refl _, rfl⟩
  · exact State.drain_kept s.src (s.setBusy true)

/-- The sink's READ is READ of its index, and is refused where that is (R118). -/
theorem State.sinkRead_eq_exec (s : State) (idx : BitVec 4) : s.sinkRead idx = exec (.read idx) s := by
  by_cases hi : idx.toNat ≤ 13
  · exact s.sinkRead_of_field idx hi
  · rw [exec_read_refused idx s hi]
    simp [State.sinkRead, decodeSink, hi]

/-- A READ does not read the schedule. -/
theorem exec_read_setInputs (idx : BitVec 4) (is : List Input) (h : exec (.read idx) s = .next t) :
    exec (.read idx) (s.setInputs is) = .next (t.setInputs is) := by
  have hport : (s.setInputs is).rdPort idx = s.rdPort idx := rfl
  simp only [exec, execRead, hport] at h ⊢
  split at h <;> cases h
  rfl

/-- Between two lines no invocation is running and the schedule is the host's own; a line adds at most the bytes it pushes to the source. -/
theorem runLine_kept (l : ScriptLine) (avail : Nat) {records : List PollRecord} (hb : s.busy = false) (hs : s.src.length ≤ avail)
    (h : runLine l s = .next (t, records)) : t.busy = false ∧ t.src.length ≤ availAfter avail l ∧ t.inputs = s.inputs := by
  cases l with
  | reset => cases h; exact ⟨rfl, hs, rfl⟩
  | push bytes => cases h; exact ⟨hb, by simpa [availAfter] using hs, rfl⟩
  | poll =>
    cases h
    obtain ⟨hb', hlen, hinputs⟩ := s.emitNone.invocation_kept hb
    exact ⟨hb', Nat.le_trans hlen hs, hinputs⟩
  | read idx =>
    simp only [runLine, State.sinkRead_eq_exec] at h
    split at h <;> cases h
    next hx =>
      obtain ⟨-, v, n, rfl⟩ := exec_read_cases idx s t hx
      exact ⟨hb, hs, rfl⟩
  | comment => cases h; exact ⟨hb, hs, rfl⟩

/-! ### Script lines on the machine -/

/-- A step that meets a READ at the head of the schedule. -/
theorem step_setInputs_read (idx : BitVec 4) (is : List Input) : step (s.setInputs (.read idx :: is)) = exec (.read idx) (s.setInputs is) :=
  (s.setInputs is).sinkRead_eq_exec idx

/-- The inputs of a PUSH line append its bytes to the source, one a step. -/
theorem runs_push (bytes : List Byte) (is : List Input) :
    Runs bytes.length (s.setInputs (bytes.map .push ++ is)) ((s.setSrc (s.src ++ bytes)).setInputs is) [] := by
  induction bytes generalizing s with
  | nil => simpa using Runs.refl (s.setInputs is)
  | cons b bytes ih =>
    have hrest := ih (s := s.pushByte b)
    rw [State.pushByte_src, List.append_assoc] at hrest
    exact .cons_quiet (step_push (s.setInputs ((b :: bytes).map .push ++ is)) b _ rfl) rfl hrest

/-- The inputs of a line carry it out, with the events it records. -/
theorem runs_line (l : ScriptLine) (avail : Nat) (is : List Input) {records : List PollRecord} (hb : s.busy = false)
    (hs : s.src.length ≤ avail) (h : runLine l s = .next (t, records)) :
    Runs (lineInputs avail l).length (s.setInputs (lineInputs avail l ++ is)) (t.setInputs is) records.flatten := by
  cases l with
  | reset =>
    cases h
    have hstep := (edgeRunsHostEvent (s.setInputs (.edge 0b10#2 :: is)) 0b10#2 is rfl).1 false rfl
    exact .cons_quiet (hstep.trans (exec_reset false _)) rfl (.refl _)
  | push bytes =>
    cases h
    simpa [lineInputs] using runs_push bytes is
  | poll =>
    cases h
    simpa [lineInputs, quietEdges] using runs_poll (avail + 1) is hb (Nat.lt_succ_of_le hs)
  | read idx =>
    simp only [runLine, State.sinkRead_eq_exec] at h
    split at h <;> cases h
    next hx =>
      exact .cons_quiet ((step_setInputs_read idx is).trans (exec_read_setInputs idx is hx)) rfl (.refl _)
  | comment => cases h; exact .refl _

/-- A line that is refused is refused on the machine (R118). -/
theorem refused_line (l : ScriptLine) (avail : Nat) (is : List Input) (k : Nat) {r : Refusal} (h : runLine l s = .refused r) :
    Refused ((lineInputs avail l).length + k) (s.setInputs (lineInputs avail l ++ is)) r := by
  cases l with
  | read idx =>
    simp only [runLine, State.sinkRead_eq_exec] at h
    split at h <;> cases h
    next hx =>
      have hi : ¬ idx.toNat ≤ 13 := fun hi => by
        obtain ⟨v, n, hnext⟩ := exec_read_next idx s hi
        rw [hnext] at hx
        cases hx
      rw [exec_read_refused idx s hi] at hx
      cases hx
      rw [Nat.add_comm]
      exact refused_of_step ((step_setInputs_read idx is).trans (exec_read_refused idx _ hi)) k
  | _ => cases h

/-! ### Scripts on the machine -/

/-- A script that ends goes through the state its first line leaves. -/
theorem runScript_cons_next {l : ScriptLine} {ls : List ScriptLine} {records : List PollRecord} (h : runScript (l :: ls) s = .next (u, records)) :
    ∃ t first rest, runLine l s = .next (t, first) ∧ runScript ls t = .next (u, rest) ∧ records = first ++ rest := by
  simp only [runScript] at h
  split at h <;> try cases h
  next t first hl =>
    split at h <;> cases h
    next rest hls => exact ⟨t, first, rest, hl, hls, rfl⟩

/-- A script that is refused is refused at its first line, or behind it. -/
theorem runScript_cons_refused {l : ScriptLine} {ls : List ScriptLine} {r : Refusal} (h : runScript (l :: ls) s = .refused r) :
    runLine l s = .refused r ∨ ∃ t first, runLine l s = .next (t, first) ∧ runScript ls t = .refused r := by
  simp only [runScript] at h
  split at h
  · cases h
  · next hl => cases h; exact .inl hl
  · next t first hl =>
    split at h <;> cases h
    next hls => exact .inr ⟨t, first, hl, hls⟩

/-- The inputs of a script lead to the state it leaves, with the events its lines record. -/
theorem runs_script (script : List ScriptLine) (avail : Nat) {records : List PollRecord} (hb : s.busy = false) (hs : s.src.length ≤ avail)
    (h : runScript script s = .next (u, records)) :
    Runs (scriptInputs avail script).length (s.setInputs (scriptInputs avail script)) (u.setInputs []) records.flatten ∧
      u.inputs = s.inputs := by
  induction script generalizing s avail records with
  | nil => cases h; exact ⟨.refl _, rfl⟩
  | cons l ls ih =>
    obtain ⟨t, first, rest, hl, hls, rfl⟩ := runScript_cons_next h
    obtain ⟨hb', hs', hinputs⟩ := runLine_kept l avail hb hs hl
    obtain ⟨hrest, hinputs'⟩ := ih (availAfter avail l) hb' hs' hls
    rw [scriptInputs, List.length_append, List.flatten_append]
    exact ⟨(runs_line l avail _ hb hs hl).trans hrest, hinputs'.trans hinputs⟩

/-- The inputs of a script that a READ ends are refused (R118). -/
theorem refused_script (script : List ScriptLine) (avail : Nat) {r : Refusal} (hb : s.busy = false) (hs : s.src.length ≤ avail)
    (h : runScript script s = .refused r) : Refused (scriptInputs avail script).length (s.setInputs (scriptInputs avail script)) r := by
  induction script generalizing s avail with
  | nil => cases h
  | cons l ls ih =>
    rw [scriptInputs, List.length_append]
    obtain hl | ⟨t, first, hl, hls⟩ := runScript_cons_refused h
    · exact refused_line l avail _ _ hl
    · obtain ⟨hb', hs', -⟩ := runLine_kept l avail hb hs hl
      exact (runs_line l avail _ hb hs hl).refused (ih (availAfter avail l) hb' hs' hls)

/-- Settles O47: line by line, the inputs of a line carry it out, and no invocation is running when the next line begins. -/
theorem scriptRunsOnMachine : Obligations.ScriptRunsOnMachine := by
  intro s script hb hempty
  dsimp only
  refine ⟨fun t records h => ?_, fun r h => refused_script script _ hb (Nat.le_refl _) h⟩
  obtain ⟨hruns, hinputs⟩ := runs_script script _ hb (Nat.le_refl _) h
  rw [← hempty, ← hinputs, State.setInputs_inputs_self] at hruns
  exact ⟨hruns.after, hruns.eventsAfter_eq⟩

end Sys2Proof.Machine
end

section
/-! The byte-step actions one by one (R100 to R107): when each is selected, what it leaves, and the edge of an invocation that runs it. -/

namespace Sys2Proof.Machine

open Sys2Proof.Safety

variable {s : State}

/-! ### The edge that runs the selected action -/

/-- At an edge without RESET a running invocation runs the action selected for the oldest byte, on the state without that byte (R109, R217). -/
theorem step_scheduled_selected {h : BitVec 2} {is : List Input} {b : Byte} {rest : List Byte} (hi : s.inputs = .edge h :: is)
    (hr : h.getLsbD 1 = false) (hb : s.busy = true) (hf : s.fault = false) (hs : s.src = b :: rest) :
    step s = exec (s.selected b) ((s.emitNone.setInputs is).setSrc rest) := by
  rw [step_edge s h is hi]
  exact (s.setInputs is).clockEdge_busy_cons h b rest hr hb hf hs

/-- Settles O4: the decision word of a state decodes to the instruction the state selects, and a RESET is the only host event that keeps an
edge from running it. -/
theorem edgeRunsSelectedByteStep : Obligations.EdgeRunsSelectedByteStep := by
  intro s b rest i hb hf hs hd
  obtain rfl : s.selected b = i := Except.ok.inj hd
  exact ⟨fun h is hi hr => step_scheduled_selected hi hr hb hf hs, fun hi => step_busy_cons s b rest hb hf hi hs⟩

/-! ### Selection (R76) -/

/-- Where mode and count do not encode a state of R22. -/
def OutsideModeCount (s : State) : Prop :=
  (s.mode = .seek ∧ s.count ≠ 0#6) ∨ (s.mode = .acc ∧ (s.count = 0#6 ∨ 48 ≤ s.count.toNat))

/-- When a byte-step action is to be selected for the byte b (the column "selects when" of R76, read on the state; R100 to R107). -/
def SelectedWhen (s : State) (b : Byte) : Instr → Prop
  | .seekStart _ _ _ => s.mode = .seek ∧ s.count = 0#6 ∧ b = 0x76#8
  | .seekDrop _ _ _ _ => s.mode = .seek ∧ s.count = 0#6 ∧ b ≠ 0x76#8
  | .accChk24Discard _ _ _ => s.mode = .acc ∧ s.count = 23#6 ∧ s.buf.read 21 = some 0x00#8
  | .accChk24Pass _ _ _ => s.mode = .acc ∧ s.count = 23#6 ∧ s.buf.read 21 ≠ some 0x00#8
  | .accDoneOk _ _ => s.mode = .acc ∧ s.count = 47#6 ∧ s.buf.read 24 = some 0x76#8 ∧ s.buf.read 45 = some 0x00#8
  | .accDoneBad _ _ _ _ => s.mode = .acc ∧ s.count = 47#6 ∧ ¬ (s.buf.read 24 = some 0x76#8 ∧ s.buf.read 45 = some 0x00#8)
  | .accAppend _ _ _ _ _ => s.mode = .acc ∧ 1 ≤ s.count.toNat ∧ s.count.toNat ≤ 46 ∧ s.count ≠ 23#6
  | .illegalState _ _ _ _ _ _ => OutsideModeCount s
  | .poll | .reset _ | .read _ => False

/-- The selected action meets its condition. -/
theorem State.selected_when (s : State) (b : Byte) : SelectedWhen s b (s.selected b) := by
  rw [State.selected_eq]
  cases hm : s.mode with
  | seek =>
    simp only
    split_ifs with hc hb
    · exact ⟨hm, hc, hb⟩
    · exact ⟨hm, hc, hb⟩
    · exact .inl ⟨hm, hc⟩
  | acc =>
    simp only [holdsEof_eq_true, holdsStart_eq_true]
    split_ifs with hc23 hz hc47 hok hr
    · exact ⟨hm, hc23, hz⟩
    · exact ⟨hm, hc23, hz⟩
    · exact ⟨hm, hc47, hok⟩
    · exact ⟨hm, hc47, hok⟩
    · exact ⟨hm, hr.1, hr.2, hc23⟩
    · refine .inr ⟨hm, ?_⟩
      simp only [← BitVec.toNat_inj, BitVec.toNat_ofNat] at hc47 ⊢
      omega

theorem selectedWhen_of_selected {b : Byte} {i : Instr} (h : s.selected b = i) : SelectedWhen s b i := h ▸ s.selected_when b

theorem State.selected_seekStart_iff (s : State) (b : Byte) :
    (∃ z21 s24 z45, s.selected b = .seekStart z21 s24 z45) ↔ s.mode = .seek ∧ s.count = 0#6 ∧ b = 0x76#8 :=
  ⟨fun ⟨_, _, _, h⟩ => selectedWhen_of_selected h, fun ⟨hm, hc, hb⟩ => by simp [State.selected_eq, hm, hc, hb]⟩

theorem State.selected_seekDrop_iff (s : State) (b : Byte) :
    (∃ z21 s24 z45, s.selected b = .seekDrop z21 s24 z45 b) ↔ s.mode = .seek ∧ s.count = 0#6 ∧ b ≠ 0x76#8 :=
  ⟨fun ⟨_, _, _, h⟩ => selectedWhen_of_selected h, fun ⟨hm, hc, hb⟩ => by simp [State.selected_eq, hm, hc, hb]⟩

theorem State.selected_accChk24Discard_iff (s : State) (b : Byte) :
    (∃ s24 z45, s.selected b = .accChk24Discard s24 z45 b) ↔ s.mode = .acc ∧ s.count = 23#6 ∧ s.buf.read 21 = some 0x00#8 :=
  ⟨fun ⟨_, _, h⟩ => selectedWhen_of_selected h, fun ⟨hm, hc, hz⟩ => by simp [State.selected_eq, hm, hc, hz]⟩

theorem State.selected_accChk24Pass_iff (s : State) (b : Byte) :
    (∃ s24 z45, s.selected b = .accChk24Pass s24 z45 b) ↔ s.mode = .acc ∧ s.count = 23#6 ∧ s.buf.read 21 ≠ some 0x00#8 :=
  ⟨fun ⟨_, _, h⟩ => selectedWhen_of_selected h, fun ⟨hm, hc, hz⟩ => by simp [State.selected_eq, hm, hc, hz]⟩

theorem State.selected_accDoneOk_iff (s : State) (b : Byte) :
    (∃ z21, s.selected b = .accDoneOk z21 b) ↔
      s.mode = .acc ∧ s.count = 47#6 ∧ s.buf.read 24 = some 0x76#8 ∧ s.buf.read 45 = some 0x00#8 :=
  ⟨fun ⟨_, h⟩ => selectedWhen_of_selected h, fun ⟨hm, hc, ha, he⟩ => by simp [State.selected_eq, hm, hc, ha, he]⟩

theorem State.selected_accDoneBad_iff (s : State) (b : Byte) :
    (∃ z21 s24 z45, s.selected b = .accDoneBad z21 s24 z45 b) ↔
      s.mode = .acc ∧ s.count = 47#6 ∧ ¬ (s.buf.read 24 = some 0x76#8 ∧ s.buf.read 45 = some 0x00#8) :=
  ⟨fun ⟨_, _, _, h⟩ => selectedWhen_of_selected h, fun ⟨hm, hc, hn⟩ => by simp [State.selected_eq, hm, hc, hn]⟩

theorem State.selected_accAppend_iff (s : State) (b : Byte) :
    (∃ z21 s24 z45, s.selected b = .accAppend s.count z21 s24 z45 b) ↔
      s.mode = .acc ∧ 1 ≤ s.count.toNat ∧ s.count.toNat ≤ 46 ∧ s.count ≠ 23#6 := by
  refine ⟨fun ⟨_, _, _, h⟩ => selectedWhen_of_selected h, fun ⟨hm, h1, h46, h23⟩ => ?_⟩
  have h47 : s.count ≠ 47#6 := fun h => by simp [h] at h46
  simp [State.selected_eq, hm, h1, h46, h23, h47]

theorem State.selected_illegalState_iff (s : State) (b : Byte) :
    (∃ z21 s24 z45, s.selected b = .illegalState s.mode.bit s.count z21 s24 z45 b) ↔ OutsideModeCount s := by
  refine ⟨fun ⟨_, _, _, h⟩ => selectedWhen_of_selected h, ?_⟩
  rintro (⟨hm, hc⟩ | ⟨hm, hc⟩)
  · simp [State.selected_eq, hm, hc, Mode.bit]
  · have h23 : s.count ≠ 23#6 := fun h => by simp [h] at hc
    have h47 : s.count ≠ 47#6 := fun h => by simp [h] at hc
    have hr : ¬ (1 ≤ s.count.toNat ∧ s.count.toNat ≤ 46) := by
      simp only [← BitVec.toNat_inj, BitVec.toNat_ofNat] at hc
      omega
    simp [State.selected_eq, hm, h23, h47, hr, Mode.bit]

/-! ### Seeking -/

/-- Settles O9: the start marker is stored at index 0 of an otherwise untouched buffer. -/
theorem seekStartBeginsCandidate : Obligations.SeekStartBeginsCandidate := by
  refine ⟨State.selected_seekStart_iff, fun s z21 s24 z45 _ _ => ?_⟩
  exact ⟨_, exec_seekStart z21 s24 z45 s, rfl, rfl, Memory.read_write_same s.buf 0 _, fun a ha => Memory.read_write_other s.buf 0 a _ ha,
    ⟨rfl, rfl, rfl⟩, ⟨rfl, rfl⟩, rfl, rfl, rfl, rfl, rfl, rfl⟩

/-- Settles O10: SEEK_DROP drives no event and writes nothing, and the edge that runs it has taken its byte from the source. -/
theorem seekDropWritesNothing : Obligations.SeekDropWritesNothing := by
  refine ⟨State.selected_seekDrop_iff, fun s z21 s24 z45 b hm hc hne => ⟨?_, fun h is rest hi hr hb hf hs => ?_⟩⟩
  · exact ⟨_, exec_seekDrop z21 s24 z45 b s, ⟨rfl, rfl, fun _ => rfl⟩, ⟨rfl, rfl, rfl⟩, ⟨rfl, rfl⟩, rfl, rfl, rfl, rfl, rfl, rfl⟩
  · obtain ⟨_, _, _, hsel⟩ := (s.selected_seekDrop_iff b).mpr ⟨hm, hc, hne⟩
    have hstep := step_scheduled_selected hi hr hb hf hs
    rw [hsel, exec_seekDrop] at hstep
    exact ⟨_, hstep, rfl, ⟨rfl, rfl, fun _ => rfl⟩, ⟨rfl, rfl⟩, ⟨rfl, rfl, rfl⟩, hb, hf⟩

/-! ### Accumulating -/

/-- Settles O11: the fill count is below 47, so the entry exists and the count does not wrap. -/
theorem appendStoresAtCount : Obligations.AppendStoresAtCount := by
  refine ⟨State.selected_accAppend_iff, fun s c z21 s24 z45 b hm _ h46 _ => ?_⟩
  exact ⟨_, exec_accAppend c z21 s24 z45 b s (by omega), hm, appended_count_toNat s _ b h46, Memory.read_write_same s.buf _ b,
    fun a ha => Memory.read_write_other s.buf _ a b ha, ⟨rfl, rfl, rfl⟩, ⟨rfl, rfl⟩, rfl, rfl, rfl, rfl, rfl, rfl⟩

/-- Settles O12: the check reads the entry at 21, and the byte is stored at 23. -/
theorem chk24PassStoresByte23 : Obligations.Chk24PassStoresByte23 := by
  refine ⟨State.selected_accChk24Pass_iff, fun s s24 z45 b v hm _ hv _ => ?_⟩
  exact ⟨_, exec_accChk24Pass s24 z45 b v s hv, hm, rfl, Memory.read_write_same s.buf 23 b,
    fun a ha => Memory.read_write_other s.buf 23 a b ha, ⟨rfl, rfl, rfl⟩, ⟨rfl, rfl⟩, rfl, rfl, rfl, rfl, rfl, rfl⟩

/-- Settles O13: the discard clears the Synchronizer and ends the invocation, and the edge that runs it has taken one byte. -/
theorem chk24DiscardEndsInvocation : Obligations.Chk24DiscardEndsInvocation := by
  refine ⟨State.selected_accChk24Discard_iff, fun s hm hc hz => ⟨fun s24 z45 b => ?_, fun h is b rest hi hr hb hf hs => ?_⟩⟩
  · exact ⟨_, exec_accChk24Discard s24 z45 b s, ⟨rfl, rfl, Memory.read_nil⟩, ⟨rfl, rfl, rfl⟩, rfl, ⟨rfl, rfl⟩, rfl, rfl, rfl, rfl, rfl⟩
  · obtain ⟨_, _, hsel⟩ := (s.selected_accChk24Discard_iff b).mpr ⟨hm, hc, hz⟩
    have hstep := step_scheduled_selected hi hr hb hf hs
    rw [hsel, exec_accChk24Discard] at hstep
    exact ⟨_, hstep, ⟨rfl, rfl, Memory.read_nil⟩, ⟨rfl, rfl, rfl⟩, rfl, rfl⟩

/-- Where the buffer holds the first 47 bytes of a frame and the byte is its last, the completed frame is that frame (R105). -/
theorem State.completedFrame_of_held (s : State) (f : Frame) (h : ∀ k : Fin 47, s.buf.read k.val = some f[k.val]) :
    s.completedFrame f[47] = some f.toList := by
  obtain ⟨l, hrange, hlen, hread⟩ := s.buf.readRange_spec 47 0 fun i _ hi => by simp [h ⟨i, by omega⟩]
  have hl : l = f.toList.take 47 := by
    refine List.ext_getElem (by simp [hlen]) fun i hi _ => ?_
    have hheld := hread i hi
    rw [Nat.zero_add, h ⟨i, hlen ▸ hi⟩] at hheld
    simpa using (Option.some.inj hheld).symm
  rw [frame_toList_eq f, ← hl]
  simp [State.completedFrame, hrange]

/-- Settles O14: DECODE is given the frame the buffer holds, and commits its record. -/
theorem doneOkCommitsFrame : Obligations.DoneOkCommitsFrame := by
  refine ⟨State.selected_accDoneOk_iff, fun s z21 f _ _ hheld _ _ => ?_⟩
  have hexec := exec_accDoneOk z21 f[47] s _ (s.completedFrame_of_held f hheld)
  rw [s.decodeFrame_of_frame _ f (frameOfBytes_toList f)] at hexec
  exact ⟨_, hexec, rfl, rfl, ⟨rfl, rfl, Memory.read_nil⟩, ⟨rfl, rfl, rfl⟩, rfl, rfl, rfl, rfl, rfl, rfl⟩

/-- Which bit of the detail stands for which marker (R80). -/
theorem markerInfo_bits (a e : Byte) :
    ((markerInfo a e).getLsbD 0 = true ↔ e ≠ Config.eofMarker) ∧ ((markerInfo a e).getLsbD 1 = true ↔ a ≠ Config.startMarker) := by
  have bits : ∀ x y : Bool, (BitVec.ofBool x ++ BitVec.ofBool y).getLsbD 0 = y ∧ (BitVec.ofBool x ++ BitVec.ofBool y).getLsbD 1 = x := by
    decide
  obtain ⟨h0, h1⟩ := bits (a != Config.startMarker) (e != Config.eofMarker)
  rw [markerInfo, h0, h1, bne_iff_ne, bne_iff_ne]
  exact ⟨Iff.rfl, Iff.rfl⟩

/-- Settles O15: the 48 bytes are cleared, and the detail is that of the two entries read. -/
theorem doneBadDiscardsFrame : Obligations.DoneBadDiscardsFrame := by
  refine ⟨State.selected_accDoneBad_iff, fun s z21 s24 z45 b a e _ _ ha he _ => ?_⟩
  obtain ⟨hend, hstart⟩ := markerInfo_bits a e
  exact ⟨_, exec_accDoneBad z21 s24 z45 b s a e ha he, ⟨rfl, rfl, Memory.read_nil⟩, rfl, rfl, hend, hstart, ⟨rfl, rfl⟩, rfl, rfl, rfl, rfl,
    rfl, rfl⟩

/-! ### IllegalState -/

/-- Settles O16: the raise writes the fault, busy and the event output alone, and the edge that runs it has taken its byte. -/
theorem illegalStateTakesFault : Obligations.IllegalStateTakesFault := by
  refine ⟨State.selected_illegalState_iff, fun s m c z21 s24 z45 b hout => ⟨?_, fun h is rest hi hr hb hf hs => ?_⟩⟩
  · exact ⟨_, exec_illegalState m c z21 s24 z45 b s, rfl, rfl, ⟨rfl, rfl, rfl⟩, ⟨rfl, rfl, fun _ => rfl⟩, ⟨rfl, rfl⟩, rfl, rfl, rfl, rfl⟩
  · obtain ⟨_, _, _, hsel⟩ := (s.selected_illegalState_iff b).mpr hout
    have hstep := step_scheduled_selected hi hr hb hf hs
    rw [hsel, exec_illegalState] at hstep
    exact ⟨_, hstep, rfl, rfl, rfl, ⟨rfl, rfl, rfl⟩, ⟨rfl, rfl, fun _ => rfl⟩, rfl, rfl⟩

end Sys2Proof.Machine
end

section
/-! The host operations one by one: POLL and where it is ignored (R109, R110), and the sink's READ (R118). -/

namespace Sys2Proof.Machine

open Sys2Proof.Safety

variable {s : State}

/-! ### POLL -/

/-- Settles O17: of the registers POLL writes busy alone. -/
theorem pollStartsInvocation : Obligations.PollStartsInvocation := by
  intro s hb hf
  exact ⟨_, exec_poll_idle s hb hf, rfl, ⟨rfl, rfl, fun _ => rfl⟩, ⟨rfl, rfl⟩, ⟨rfl, rfl, rfl⟩, rfl, rfl, rfl, rfl, rfl⟩

/-- While an invocation is running or a fault stands, an edge with POLL is a quiet edge: POLL is not run, or runs without effect (R110). -/
theorem State.clockEdge_poll_ignored (h : s.busy = true ∨ s.fault = true) : s.clockEdge 0b01#2 = s.clockEdge 0b00#2 := by
  cases hb : s.busy with
  | true =>
    have hevent : s.emitNone.hostEvent 0b01#2 = none := by simp [State.hostEvent, decodeHost_eq, hb]
    rw [State.clockEdge_zero, State.clockEdge, hevent]
  | false =>
    have hf : s.emitNone.fault = true := h.resolve_left (by simp [hb])
    have hevent : s.emitNone.hostEvent 0b01#2 = some .poll := State.hostEvent_poll rfl hb
    rw [State.clockEdge_of_hostEvent hevent, exec_poll_ignored _ (.inr hf), State.clockEdge_zero,
      State.drainEdge_idle (s := s.emitNone) hb]

/-- Settles O18: both edges are the same edge, which answers a next state as every clock edge does. -/
theorem pollIgnoredWhileBusyOrFault : Obligations.PollIgnoredWhileBusyOrFault := by
  intro s is h
  obtain ⟨t, ht, -⟩ := (s.setInputs is).clockEdge_total 0b01#2
  exact ⟨exec_poll_ignored s h, State.clockEdge_poll_ignored (s := s.setInputs is) h, t, ht⟩

/-! ### READ -/

/-- A step that meets a READ is READ of its index on the state without that input. -/
theorem step_read {idx : BitVec 4} {is : List Input} (hi : s.inputs = .read idx :: is) : step s = exec (.read idx) (s.setInputs is) := by
  rw [← step_setInputs_read, ← hi, State.setInputs_inputs_self]

/-- An index that decodes, decodes to READ of itself (R82). -/
theorem eq_read_of_decodeSink {idx : BitVec 4} {i : Instr} (hd : decodeSink idx = .ok i) : i = .read idx := by
  unfold decodeSink at hd
  split_ifs at hd
  cases hd
  rfl

/-- Settles O6: the sink's read is READ of the index whether that is refused or not. -/
theorem sinkReadRunsRead : Obligations.SinkReadRunsRead := by
  intro s idx is hi
  rw [step_read hi]
  exact ⟨fun i hd => by rw [eq_read_of_decodeSink hd], fun h14 => exec_read_refused idx _ (by omega)⟩

/-- The numbers of the fields T0 to T13 of a record, in order (R26). -/
def Telemetry.numbers (r : Telemetry) : List Nat :=
  [ r.setTemp.toNat, r.desiredTemp.toNat, r.runStateCode.toNat, r.onOff.toNat, r.supplyVoltageRaw.toNat, r.fanSpeed.toNat,
    r.fanVoltageRaw.toNat, r.heatExchangerTemp.toNat, r.glowPlugVoltageRaw.toNat, r.glowPlugCurrentRaw.toNat,
    r.pumpFreqRaw.toNat, r.errorCode.toNat, r.errorSel.toNat, r.runStateSel.toNat ]

/-- Extending a field to 16 bits keeps its number (R118). -/
theorem Telemetry.numbers_of_field (r : Telemetry) (n : Nat) (v : Half) (h : r.field n = some v) : r.numbers[n]? = some v.toNat := by
  unfold Telemetry.field at h
  split at h <;> cases h <;> simp [Telemetry.numbers, -BitVec.toNat_setWidth, BitVec.toNat_setWidth_of_le]

/-- Settles O21: the field exists, and its extension to 16 bits keeps its number. -/
theorem readGivesField : Obligations.ReadGivesField := by
  refine fun s idx => ⟨fun r hv hr h13 => ?_, fun h14 => exec_read_refused idx s (by omega)⟩
  obtain ⟨v, hf⟩ := r.field_isSome idx.toNat h13
  exact ⟨_, exec_read_record idx s r v h13 hv hr hf, r.numbers_of_field _ v hf, ⟨rfl, rfl, fun _ => rfl⟩, ⟨rfl, rfl⟩, ⟨rfl, rfl, rfl⟩,
    rfl, rfl, rfl, rfl⟩

/-- Settles O22: the value is drawn at the counter, whatever record bits stand behind tlm_valid = 0. -/
theorem readWithoutRecordIsFree : Obligations.ReadWithoutRecordIsFree := by
  intro s idx hv h13
  exact ⟨_, exec_read_free idx s h13 (by simp [hv]), rfl, rfl, ⟨rfl, rfl, fun _ => rfl⟩, ⟨rfl, rfl⟩, ⟨rfl, rfl, rfl⟩, rfl, rfl, rfl, rfl⟩

end Sys2Proof.Machine
end

section
/-! The clock with an empty schedule (log entry 2): an idle block, and an invocation up to the edge that ends it (R109, R113, R116). -/

namespace Sys2Proof.Machine

open Sys2Proof.Safety

variable {s t : State}

/-- Settles O36: where the byte step aborts, the action it selects has ended the invocation too. -/
theorem byteStepEqualsRows : Obligations.ByteStepEqualsRows := by
  intro s b
  cases exec_selected_turn s b with
  | goesOn t h hexec => rw [hexec, h]; rfl
  | ends t h hexec => rw [hexec, h]; rfl

/-! ### Steps with an empty schedule -/

/-- The empty schedule stands for an edge with h = 00 (log entry 2). -/
theorem step_of_empty (hi : s.inputs = []) : step s = s.emitNone.drainEdge := by
  simp only [step, State.takeInput, hi]
  exact s.clockEdge_zero

theorem step_setInputs_nil (s : State) : step (s.setInputs []) = step (s.setInputs [.edge 0#2]) := rfl

/-- The event of an edge of the empty schedule is the one it drives (R31). -/
theorem stepEvents_of_empty (hi : s.inputs = []) : stepEvents s t = t.driven := by
  simp only [stepEvents, hi, State.driven]

/-- An edge while no invocation is running only ends the strobe (R31, R113). -/
theorem step_idle (hi : s.inputs = []) (hb : s.busy = false) : step s = .next s.emitNone :=
  (step_of_empty hi).trans (State.drainEdge_idle (s := s.emitNone) hb)

/-- While no invocation is running, k + 1 edges end the strobe and change nothing else. -/
theorem runs_idle (k : Nat) (hi : s.inputs = []) (hb : s.busy = false) : Runs (k + 1) s s.emitNone [] := by
  induction k generalizing s with
  | zero => exact .cons_quiet (step_idle hi hb) (stepEvents_of_empty hi) (.refl _)
  | succ k ih => exact .cons_quiet (step_idle hi hb) (stepEvents_of_empty hi) (ih (s := s.emitNone) hi hb)

/-- Settles O35: every edge of the empty schedule is quiet. -/
theorem idleClockKeepsEverything : Obligations.IdleClockKeepsEverything :=
  fun _ k hi hb => (runs_idle k hi hb).after

/-- The edges of an empty schedule carry a running invocation to the state the loop of R109 leaves, with the loop's events, in at most one edge
a byte and one more. -/
theorem runs_drain_exact (l : List Byte) (hb : s.busy = true) (hf : s.fault = false) :
    ∃ k ≤ l.length + 1, Runs k ((s.setSrc l).setInputs []) ((State.drain l s).1.setInputs []) (State.drain l s).2 := by
  induction l generalizing s with
  | nil =>
    have hstep := (step_setInputs_nil (s.setSrc [])).trans (step_drained_edge hb [])
    exact ⟨1, Nat.le_refl 1, .cons_quiet hstep rfl (.refl _)⟩
  | cons b rest ih =>
    cases loopTurn s b rest [] hb hf with
    | goesOn t hstep hb' hf' hd =>
      obtain ⟨k, hk, hruns⟩ := ih hb' hf'
      rw [hd]
      exact ⟨k + 1, Nat.succ_le_succ hk, (Runs.cons ((step_setInputs_nil _).trans hstep) hruns :)⟩
    | ends t hstep _ hd =>
      rw [hd, ← List.append_nil t.driven]
      exact ⟨1, Nat.succ_le_succ (Nat.zero_le _), (Runs.cons ((step_setInputs_nil _).trans hstep) (.refl _) :)⟩

/-- Settles O37: the POLL edge sets busy, and the edges behind it are the loop. -/
theorem pollRunsWholeInvocation : Obligations.PollRunsWholeInvocation := by
  intro s hb hf hi
  have hpoll : step s = .next ((s.emitNone.setBusy true).setInputs []) :=
    ((edgeRunsHostEvent s 0b01#2 [] hi).2 rfl hb).trans (exec_poll_idle _ hb hf)
  have hevents : stepEvents s ((s.emitNone.setBusy true).setInputs []) = [] := by simp [stepEvents, hi]
  obtain ⟨k, hk, hruns⟩ := runs_drain_exact (s := s.emitNone.setBusy true) s.src rfl hf
  have hall := Runs.cons_quiet hpoll hevents hruns
  rw [s.emitNone.invocation_start hb hf]
  exact ⟨k + 1, Nat.succ_le_succ hk, hall.after, hall.eventsAfter_eq⟩

/-- While a fault stands an invocation ends at its next edge, whatever the source holds (R32, R109; log entry 7). -/
theorem State.drainEdge_fault (hb : s.busy = true) (hf : s.fault = true) : s.drainEdge = .next s.endInvocation := by
  simp [State.drainEdge, hb, hf]

/-- Settles O38: where a fault stands the next edge ends the invocation, and otherwise the loop of R109 does. -/
theorem invocationEnds : Obligations.InvocationEnds := by
  intro s hb hi
  cases hf : s.fault with
  | true =>
    have hstep := (step_of_empty hi).trans (State.drainEdge_fault (s := s.emitNone) hb hf)
    exact ⟨1, _, Nat.succ_le_succ (Nat.zero_le _), (Runs.cons hstep (.refl _)).after, rfl⟩
  | false =>
    obtain ⟨k, hk, hruns⟩ := runs_drain_exact s.src hb hf
    rw [State.setSrc_src_self, ← hi, State.setInputs_inputs_self] at hruns
    exact ⟨k, _, hk, hruns.after, (State.drain_kept s.src s).1⟩

end Sys2Proof.Machine
end

section
/-! The byte step and the loop of R109 from the states of the invariant: no fault, one way to abort, and what an invocation over noise, over two
parts of a stream, and over a discarded candidate leaves. -/

namespace Sys2Proof.Machine

open Sys2Proof.Safety

variable {s t : State}

/-! ### No fault -/

theorem read_ne_none_of_bufferHeld (h : BufferHeld s) {i : Nat} (h48 : i < 48) (hc : i < s.count.toNat) : s.buf.read i ≠ none := by
  obtain ⟨-, hheld⟩ := h
  have hi := hheld ⟨i, h48⟩
  rw [decide_eq_true hc] at hi
  exact Option.isSome_iff_ne_none.mp hi

/-- In the invariant no byte step raises: mode and count encode a state of R22, and every entry read is held (R23). -/
theorem ByteStepResult.fault_eq {b : Byte} (h : ByteStepResult s b t) (hi : Inv s) : t.fault = s.fault := by
  cases h with
  | raise h =>
    obtain ⟨hseek, hle⟩ := hi.modeCount
    obtain ⟨hm, hc⟩ | ⟨hm, hc | hc⟩ | ⟨-, hc, i, h47, hempty⟩ | ⟨-, hc, hempty⟩ := h
    · exact absurd (hseek.mp hm) hc
    · exact absurd (hseek.mpr hc) (by simp [hm])
    · omega
    · exact absurd hempty (read_ne_none_of_bufferHeld hi.buffer (by omega) (by simpa [hc] using h47))
    · exact absurd hempty (read_ne_none_of_bufferHeld hi.buffer (by omega) (by simp [hc]))
  | _ => rfl

/-- Settles O28: only a byte step could raise the fault, and ILLEGAL_STATE is driven only with it. -/
theorem faultUnreachable : Obligations.FaultUnreachable := by
  intro s t hi hf hstep
  have hfault : t.fault = false := by
    obtain ⟨hfault, -⟩ | ⟨h, is, -, hr⟩ := step_kept_or_edge hstep
    · exact hfault.trans hf
    · cases hr with
      | reset => rfl
      | byte b rest _ _ _ _ _ _ ht => exact (ht.fault_eq ((hi.setInputs is).emitNone.setSrc rest)).trans hf
      | _ => exact hf
  exact ⟨hfault, fun hc => by simp [(stepKeepsInvariant s t hi hstep).faultEvent hc] at hfault⟩

/-! ### One byte step of a running invocation -/

/-- What a byte step of a running invocation without fault does to a state of the invariant: it goes on in the invariant, or it is the premature
discard, which aborts with its event (R104). -/
inductive SoundByteStep (s : State) (b : Byte) : Prop
  | goesOn (t : State) (h : byteStep b s = (t, false)) (hi : Inv t) (hb : t.busy = true) (hf : t.fault = false)
  | discards (t : State) (h : byteStep b s = (t, true)) (he : t.driven = [(2#3, 0#2)])

/-- A byte step that ends a running invocation without a fault is the premature discard. -/
theorem ByteStepResult.driven_of_ends {b : Byte} (h : ByteStepResult s b t) (hb : s.busy = true) (hb' : t.busy = false)
    (hf : t.fault = false) : t.driven = [(2#3, 0#2)] := by
  cases h with
  | discard => rfl
  | raise => simp at hf
  | _ => simp [hb] at hb'

theorem byteStepResult_of_exec {b : Byte} (h : exec (s.selected b) s = .next t) : ByteStepResult s b t := by
  obtain ⟨u, hu, hr⟩ := exec_selected s b
  rwa [Host.Outcome.next.inj (h.symm.trans hu)]

theorem soundByteStep (b : Byte) (hi : Inv s) (hb : s.busy = true) (hf : s.fault = false) : SoundByteStep s b := by
  cases exec_selected_turn s b with
  | goesOn t h hexec hfault hbusy =>
    exact .goesOn t h (hi.byteStepResult (byteStepResult_of_exec hexec)) (hbusy.trans hb) (hfault.trans hf)
  | ends t h hexec =>
    have hr := byteStepResult_of_exec hexec
    exact .discards t h (hr.driven_of_ends hb rfl ((hr.fault_eq hi).trans hf))

/-! ### Noise -/

/-- Settles O39: the noise leaves the cleared Synchronizer as it is, and the loop ends where the source is empty. -/
theorem noiseLeavesNoTrace : Obligations.NoiseLeavesNoTrace := by
  intro s noise hi hidle hn hs
  have hloop := State.drain_noise (s.setBusy true) noise [] hidle.2.2 hn
  rw [List.append_nil] at hloop
  rw [s.invocation_seek hi hidle, hs, hloop]
  have hclear : (s.setBusy true).clear = s.setBusy true := congrArg (State.setBusy true) (s.clear_eq_self hi hidle.1)
  have hends : (s.setBusy true).endInvocation = s := by
    rw [State.endInvocation, State.setBusy_setBusy, ← hidle.2.1, State.setBusy_busy_self]
  rw [hclear]
  exact ⟨rfl, congrArg (fun x => x.emitNone.setSrc []) hends⟩

/-! ### Two parts -/

/-- The loop over two parts is the loop over the first and then, unless a premature discard has ended it, the loop over the second. -/
theorem State.drain_append (first second : List Byte) (hi : Inv s) (hb : s.busy = true) (hf : s.fault = false)
    (hn : (2#3, 0#2) ∉ (State.drain first s).2) :
    (State.drain first s).1.fault = false ∧
    State.drain (first ++ second) s =
      ((State.drain second ((State.drain first s).1.setBusy true)).1,
        (State.drain first s).2 ++ (State.drain second ((State.drain first s).1.setBusy true)).2) := by
  induction first generalizing s with
  | nil =>
    have hself : (State.drain [] s).1.setBusy true = (s.emitNone).setSrc [] := by
      rw [← hb]; rfl
    refine ⟨hf, ?_⟩
    rw [hself, State.drain_setSrc, State.drain_emitNone]
    rfl
  | cons b first ih =>
    cases soundByteStep b hi hb hf with
    | goesOn t h hi' hb' hf' =>
      have turn (rest : List Byte) : State.drain (b :: rest) s = ((State.drain rest t).1, t.driven ++ (State.drain rest t).2) := by
        simp [State.drain_cons, byteStep_setSrc, h, hf', State.drain_setSrc, State.driven]
      rw [turn] at hn ⊢
      obtain ⟨hfault, happ⟩ := ih hi' hb' hf' fun hmem => hn (List.mem_append_right _ hmem)
      refine ⟨hfault, ?_⟩
      rw [List.cons_append, turn, happ, List.append_assoc]
    | discards t h he =>
      have turn : (State.drain (b :: first) s).2 = t.driven := by
        rw [State.drain_cons, byteStep_setSrc, h]
        rfl
      exact absurd (by simp [turn, he]) hn

/-- POLL over these bytes is the loop over them (R109). -/
theorem State.invocation_setSrc (l : List Byte) (hb : s.busy = false) (hf : s.fault = false) :
    (s.setSrc l).invocation = State.drain l (s.setBusy true) :=
  ((s.setSrc l).invocation_start hb hf).trans (State.drain_setSrc l l (s.setBusy true))

/-- Settles O41: the second invocation takes the loop up where the first has ended it. -/
theorem partialDelivery : Obligations.PartialDelivery := by
  intro s first second hi hb hf
  dsimp only
  rw [State.invocation_setSrc first hb hf, State.invocation_setSrc (first ++ second) hb hf]
  intro hn
  have hi' : Inv (s.setBusy true) := hi.setBusy true fun hf' => by simp [hf] at hf'
  obtain ⟨hfault, happ⟩ := State.drain_append first second hi' rfl hf hn
  rw [State.invocation_setSrc second (State.drain_kept first (s.setBusy true)).1 hfault, happ]
  exact ⟨rfl, rfl⟩

/-! ### Discarded candidates -/

/-- Settles O42: the byte step at count 23 aborts, and the loop with it. -/
theorem prematureDiscardLeavesSource : Obligations.PrematureDiscardLeavesSource := by
  intro s b rest hi hb hf hc hz hs
  have hm : s.mode = .acc := by
    cases hm : s.mode with
    | seek => simp [hi.modeCount.1.mp hm] at hc
    | acc => rfl
  have hdiscard : byteStep b ((s.setBusy true).setSrc rest) = (((s.setBusy true).setSrc rest).clear.emit .prematureEof 0#2, true) :=
    byteStep_discard _ b hm (by simp [hc]) hz
  rw [s.invocation_start hb hf, hs, State.drain_cons, hdiscard]
  exact ⟨rfl, rfl, ⟨rfl, rfl, Memory.read_nil⟩, rfl, rfl, rfl⟩

/-- Settles O43: the candidate is its first 21 bytes, the end marker, and two bytes more. -/
theorem prematureFrameDiscarded : Obligations.PrematureFrameDiscarded := by
  intro s l rest hi hidle hlen h0 h21 hs
  obtain ⟨z, b, c, hdrop⟩ := List.length_eq_three.mp (show (l.drop 21).length = 3 by simp [hlen])
  obtain rfl : z = 0x00#8 := by
    have hz : (l.drop 21)[0]? = some z := by rw [hdrop]; rfl
    rw [List.getElem?_drop, h21] at hz
    exact (Option.some.inj hz).symm
  have hsplit : l ++ rest = l.take 21 ++ 0x00#8 :: b :: c :: rest := by
    calc l ++ rest = (l.take 21 ++ l.drop 21) ++ rest := by rw [List.take_append_drop]
      _ = _ := by rw [hdrop, List.append_assoc]; rfl
  have hloop := State.drain_premature (s.setBusy true) (l.take 21) b c rest hidle.2.2 (by simp [hlen]) (by simpa using h0)
  rw [← hsplit] at hloop
  rw [s.invocation_seek hi hidle, hs, hloop]
  exact ⟨rfl, rfl, ⟨rfl, rfl, Memory.read_nil⟩, rfl, hidle.2.2, rfl, rfl⟩

/-- Settles O44: the loop goes on behind the report from the cleared Synchronizer the candidate met. -/
theorem markerFailureLeavesNoTrace : Obligations.MarkerFailureLeavesNoTrace := by
  intro s f rest hi hidle h0 h21 hn hs
  have hmarkers : ¬ (f[24] = 0x76#8 ∧ f[45] = 0x00#8) := by rwa [not_and_or]
  dsimp only
  rw [s.invocation_setSrc_seek rest hi hidle, s.invocation_seek hi hidle, hs,
    State.drain_markerFail (s.setBusy true) f rest hidle.2.2 h0 h21 hmarkers]
  exact ⟨rfl, rfl⟩

end Sys2Proof.Machine
end

section
/-! The Decoder (41_decoder.md): the numbers two bytes make, the physical values of the scaled fields, the selectors and their texts, and the
length check of DECODE. -/

namespace Sys2Proof.Machine

open Sys2Proof.Safety

/-! ### Raw fields and physical values (R52, R53, R154) -/

theorem be16_eq_append (hi lo : Byte) : be16 hi lo = hi ++ lo := by
  rw [be16, BitVec.append_def, BitVec.shiftLeftZeroExtend_eq, BitVec.setWidth'_eq]

/-- The high byte counts 256 (R52). -/
theorem be16_toNat (hi lo : Byte) : (be16 hi lo).toNat = 256 * hi.toNat + lo.toNat := by
  rw [be16_eq_append, BitVec.toNat_append, ← Nat.shiftLeft_add_eq_or_of_lt lo.isLt, Nat.shiftLeft_eq, Nat.mul_comm]

theorem physical_of_raw {t : Telemetry} {n : Nat} {k : Rat} {raw : Half} (hk : scaleOf n = some k)
    (hraw : t.field n = some raw) : t.physical n = some (raw.toNat * k) := by
  simp [Telemetry.physical, hk, hraw]

/-- The physical value of a field of one byte. -/
theorem physical_of_byte {t : Telemetry} {n : Nat} {k v : Rat} {b : Byte} (hk : scaleOf n = some k)
    (hb : t.field n = some (b.zeroExtend 16)) (hv : b.toNat * k = v) : t.physical n = some v := by
  have hwide : (b.zeroExtend 16).toNat = b.toNat := BitVec.toNat_setWidth_of_le (by decide)
  rw [physical_of_raw hk hb, hwide, hv]

/-- The physical value of a field of two bytes. -/
theorem physical_of_be16 {t : Telemetry} {n : Nat} {k v : Rat} {hi lo : Byte} (hk : scaleOf n = some k)
    (hw : t.field n = some (be16 hi lo)) (hv : (256 * hi.toNat + lo.toNat) * k = v) : t.physical n = some v := by
  rw [physical_of_raw hk hw, be16_toNat, ← hv]
  push_cast
  rfl

/-- The raw integers of a frame's record are the frame's bytes at R71's offsets (R142 to R153). -/
theorem rawFieldsOf_telemetryOf (f : Frame) : RawFieldsOf f (telemetryOf f) := by
  have honOff : (telemetryOf f).onOff = true ↔ f[27] = 1#8 := beq_iff_eq
  exact ⟨rfl, rfl, rfl, honOff, be16_toNat _ _, be16_toNat _ _, be16_toNat _ _, be16_toNat _ _, be16_toNat _ _, be16_toNat _ _, rfl, rfl⟩

/-- Settles O23: each scaled field is one byte, or two bytes high byte first, times its factor of R154. -/
theorem decodedFieldValues : Obligations.DecodedFieldValues := by
  intro f
  exact ⟨rawFieldsOf_telemetryOf f,
    physical_of_byte rfl rfl (mul_one _),
    physical_of_byte rfl rfl (mul_one _),
    physical_of_be16 rfl rfl (mul_one_div _ _),
    physical_of_be16 rfl rfl (mul_one _),
    physical_of_be16 rfl rfl (mul_one_div _ _),
    physical_of_be16 rfl rfl (mul_one _),
    physical_of_be16 rfl rfl (mul_one_div _ _),
    physical_of_be16 rfl rfl (mul_one_div _ _),
    physical_of_byte rfl rfl (mul_one_div _ _)⟩

/-! ### Selectors and texts (R155, R156, R160, R161) -/

/-- The selector of a code over a table whose last known code is `last`: the code itself, or 15. -/
theorem selector_toNat (last code : Byte) (hlast : last.toNat < 16) :
    (if code ≤ last then code.truncate 4 else Config.unknownSel).toNat = if code.toNat ≤ last.toNat then code.toNat else 15 := by
  simp only [BitVec.le_def]
  split
  · next h => exact (BitVec.toNat_setWidth ..).trans (Nat.mod_eq_of_lt (Nat.lt_of_le_of_lt h hlast))
  · rfl

theorem runSel_toNat (code : Byte) : (runSel code).toNat = if code.toNat ≤ 8 then code.toNat else 15 :=
  selector_toNat Config.lastRunState code (by decide)

theorem errSel_toNat (code : Byte) : (errSel code).toNat = if code.toNat ≤ 10 then code.toNat else 15 :=
  selector_toNat Config.lastError code (by decide)

theorem runSel_of_unknown {code : Byte} (h : 8 < code.toNat) : runSel code = Config.unknownSel :=
  if_neg (Nat.not_le.mpr h)

theorem errSel_of_unknown {code : Byte} (h : 10 < code.toNat) : errSel code = Config.unknownSel :=
  if_neg (Nat.not_le.mpr h)

theorem runStateText_of_open {sel : BitVec 4} (h : sel.toNat ≤ 8) (h5 : sel.toNat ≠ 5) :
    runStateText sel = some (Config.openRunStateText sel.toNat) := by
  have hne5 : sel ≠ 5#4 := by rintro rfl; exact h5 rfl
  have hne15 : sel ≠ Config.unknownSel := by rintro rfl; exact absurd h (by decide)
  rw [runStateText, if_neg hne5, if_neg hne15, if_pos (BitVec.le_def.mpr h)]

theorem errorText_of_open {sel : BitVec 4} (h : sel.toNat ≤ 10) (h4 : sel.toNat ≠ 4) :
    errorText sel = some (Config.openErrorText sel.toNat) := by
  have hne4 : sel ≠ 4#4 := by rintro rfl; exact h4 rfl
  have hne15 : sel ≠ Config.unknownSel := by rintro rfl; exact absurd h (by decide)
  rw [errorText, if_neg hne4, if_neg hne15, if_pos (BitVec.le_def.mpr h)]

theorem runStateText_runSel_of_open {code : Byte} (h : code.toNat ≤ 8) (h5 : code ≠ 5#8) :
    runStateText (runSel code) = some (Config.openRunStateText code.toNat) := by
  have hsel : (runSel code).toNat = code.toNat := (runSel_toNat code).trans (if_pos h)
  rw [← hsel]
  exact runStateText_of_open (hsel ▸ h) (hsel ▸ fun hc => h5 (BitVec.eq_of_toNat_eq hc))

theorem errorText_errSel_of_open {code : Byte} (h : code.toNat ≤ 10) (h4 : code ≠ 4#8) :
    errorText (errSel code) = some (Config.openErrorText code.toNat) := by
  have hsel : (errSel code).toNat = code.toNat := (errSel_toNat code).trans (if_pos h)
  rw [← hsel]
  exact errorText_of_open (hsel ▸ h) (hsel ▸ fun hc => h4 (BitVec.eq_of_toNat_eq hc))

/-- Settles O24: the named code, the fallback above the last known code, and the open texts between. -/
theorem selectorsAndTexts : Obligations.SelectorsAndTexts := by
  intro f
  refine ⟨runSel_toNat f[26], errSel_toNat f[41], fun h => ?_, fun h => ?_, runStateText_runSel_of_open,
    fun h => ?_, fun h => ?_, errorText_errSel_of_open⟩
  · exact congrArg (fun code => runStateText (runSel code)) h
  · exact congrArg runStateText (runSel_of_unknown h)
  · exact congrArg (fun code => errorText (errSel code)) h
  · exact congrArg errorText (errSel_of_unknown h)

/-! ### The length check (R158) -/

/-- Settles O25: the length check lets exactly the frames through (log entry 14). -/
theorem shortFrameWritesNothing : Obligations.ShortFrameWritesNothing := by
  intro s bytes
  constructor
  · intro hshort
    rw [s.decodeFrame_of_short bytes hshort]
    exact ⟨rfl, rfl, rfl, rfl⟩
  · intro hlen
    obtain ⟨f, hframe, hbytes⟩ := frameOfBytes_of_length bytes hlen
    exact ⟨f, hbytes, s.decodeFrame_of_frame bytes f hframe, rfl, rfl, ⟨rfl, rfl, fun _ => rfl⟩, ⟨rfl, rfl, rfl⟩, rfl, rfl, rfl, rfl⟩

end Sys2Proof.Machine
end

section
/-! Edges without effect, and RESET during an invocation (R109, R110, R214, R217). -/

namespace Sys2Proof.Machine

open Sys2Proof.Safety

variable {s t : State}

/-- No instruction has an effect at an edge with h that is not RESET: a running invocation finds no byte, or none runs and the edge starts none
(R109, R110). -/
def QuietEdge (h : BitVec 2) (s : State) : Prop :=
  (s.busy = true ∧ s.src = []) ∨ (s.busy = false ∧ (h = 0#2 ∨ s.fault = true))

/-- Of the results of an edge only the end of an invocation and the ones that leave an idle block as it is are left. -/
theorem EdgeResult.eq_of_quietEdge {h : BitVec 2} (hr : EdgeResult h s t) (hrst : h.getLsbD 1 = false) (hq : QuietEdge h s) :
    t = s.emitNone.setBusy false := by
  have idle (hb : s.busy = false) : s.emitNone = s.emitNone.setBusy false := by
    rw [← hb]
    rfl
  cases hr with
  | reset hrst' => exact absurd (hrst.symm.trans hrst') Bool.false_ne_true
  | poll hh hb hf => simp [QuietEdge, hh, hb, hf] at hq
  | pollIgnored _ hb _ => exact idle hb
  | idle _ hb => exact idle hb
  | ends => rfl
  | byte b rest _ _ hb _ hs => simp [QuietEdge, hb, hs] at hq

/-- Settles O8: the edge leaves the state with the strobe and busy at 0, and the schedule without that input. -/
theorem quietEdgesChangeOnlyBusy : Obligations.QuietEdgesChangeOnlyBusy := by
  intro s h is hi hrst hq
  obtain ⟨t, ht, hr⟩ := (s.setInputs is).clockEdge_total h
  obtain rfl := hr.eq_of_quietEdge hrst hq
  exact ⟨_, (step_edge s h is hi).trans ht, rfl, ⟨rfl, rfl, rfl⟩, ⟨rfl, rfl, fun _ => rfl⟩, ⟨rfl, rfl⟩, rfl, rfl, rfl, rfl, rfl⟩

/-- Settles O20: the edge runs RESET and no byte step, so the source is as it was; that an invocation was running makes no difference. -/
theorem resetDuringInvocation : Obligations.ResetDuringInvocation := by
  intro s h is hi hrst _
  have hstep := (edgeRunsHostEvent s h is hi).1 (h.getLsbD 0) (decodeHost_rst h hrst)
  exact ⟨_, hstep.trans (exec_reset _ _), rfl, rfl, ⟨rfl, rfl, Memory.read_nil⟩, rfl, rfl, rfl, rfl, rfl⟩

end Sys2Proof.Machine
end

section
/-! The end of a run (R218): what a step can still do there, and what that keeps. -/

namespace Sys2Proof.Safety

open Sys2Proof.Machine

variable {s t : State}

/-- An edge that is no host event drives h = 00 (R77). -/
theorem eq_zero_of_not_isHostEvent {h : BitVec 2} (hh : (Input.edge h).isHostEvent = false) : h = 0#2 := by
  simpa [Input.isHostEvent] using hh

/-- At the end of a run a step is a READ, or a quiet edge, which takes at most the input at the head of the schedule (log entry 2). -/
theorem EndOfRun.step_cases (he : EndOfRun s) (hstep : step s = .next t) :
    (∃ idx is v n, s.inputs = .read idx :: is ∧ t = (s.setInputs is).gotRead v n) ∨
    ∃ is, is ⊆ s.inputs ∧ t = (s.setInputs is).emitNone.setBusy false := by
  obtain ⟨hb, -, hquiet⟩ := he
  obtain ⟨b, is, hi, -⟩ | ⟨idx, is, v, n, hi, -, rfl⟩ | ⟨h, is, hi, hr⟩ := Machine.step_cases s t hstep
  · exact absurd (hquiet (.push b) (by simp [hi])) (by simp [Input.isHostEvent])
  · exact .inl ⟨idx, is, v, n, hi, rfl⟩
  · obtain ⟨rfl, hsub⟩ : h = 0#2 ∧ is ⊆ s.inputs := by
      obtain hi | ⟨-, rfl, rfl⟩ := hi
      · exact ⟨eq_zero_of_not_isHostEvent (hquiet _ (by simp [hi])), by simp [hi]⟩
      · exact ⟨rfl, List.nil_subset _⟩
    exact .inr ⟨is, hsub, hr.eq_of_quietEdge rfl (.inr ⟨hb, .inl rfl⟩)⟩

/-- Taking inputs off the schedule brings no host event. -/
theorem EndOfRun.setInputs {is : List Input} (he : EndOfRun s) (hsub : is ⊆ s.inputs) : EndOfRun (s.setInputs is) := by
  obtain ⟨hb, hs, hquiet⟩ := he
  exact ⟨hb, hs, fun x hx => hquiet x (hsub hx)⟩

/-- Where a step leaves the event output at 0, 0, 0, it adds no event (R31). -/
theorem stepEvents_of_not_strobe (ht : t.evtStrobe = false) : stepEvents s t = [] := by
  unfold stepEvents
  split <;> simp [ht]

/-- Settles O48: a READ writes the sink's side alone and drives no event, and a quiet edge ends the strobe. -/
theorem endOfRunStaysOver : Obligations.EndOfRunStaysOver := by
  intro s t he hstep
  obtain ⟨idx, is, v, n, hi, rfl⟩ | ⟨is, hsub, rfl⟩ := he.step_cases hstep
  · have hkept : EndOfRun (s.setInputs is) := he.setInputs (by simp [hi])
    exact ⟨hkept, rfl, by simp only [stepEvents, hi]⟩
  · obtain ⟨-, hs, hquiet⟩ := he.setInputs hsub
    exact ⟨⟨rfl, hs, hquiet⟩, rfl, stepEvents_of_not_strobe rfl⟩

end Sys2Proof.Safety
end
